-- ==== Sys2Proof/Word.lean ====
section
/-! DEFINITION. Word.lean: the plainest values of the block (rule R10): a byte is eight bits and unsigned, a level or
bit is one bit. A position (R10, R21, D3), the absolute index of a sample, 0 for the first sample after reset, is a plain
unbounded `Nat`. -/

namespace Sys2Proof

/-- An unsigned 8-bit value; bit 0 is the least significant (R10). -/
abbrev Byte := BitVec 8

/-- The level of the channel at one tick, and the value of a bit cell: false is low or 0, true is high or 1 (R10). -/
abbrev Level := Bool

end Sys2Proof
end

