-- ==== Sys2Proof/Config.lean ====
section
/-! DEFINITION. Config.lean: what is fixed for the machine (R7), the parameters the spec leaves open (R8, log 7), and the
free values of the model (log 5, log 21). A constant without a body stands for any value: nothing can be proved of it. -/

namespace Sys2Proof.Config

/-- R7 `LOW_SKIP`: the first skip of a bit cell, in ticks. -/
def lowSkip : Nat := 16

/-- R7 `HIGH_SKIP`: the second skip of a bit cell, in ticks. -/
def highSkip : Nat := 36

/-- R7 `CELL_TICKS`: the length of every bit cell. -/
def cellTicks : Nat := lowSkip + highSkip

/-- R7 `DATA_BITS`: the data bits of a byte. -/
def dataBits : Nat := 8

/-- R7 `TELEGRAM_LEN`: the bytes of a telegram. -/
def telegramLen : Nat := 7

/-- R7 `START_LEVEL`: the level that ends the hunt for a start bit. -/
def startLevel : Level := false

/-- R8 `SINK_BURST`: the most records one step hands to the sink. -/
def sinkBurst : Nat := 9

/-- R1, R89: the protocol identifier shown to the host. -/
def protocolId : String := "scs"

/-- R8 `LABEL_TELEGRAM` (D15): the text of the telegram record. -/
def labelTelegram : String := "SCS telegram (7 bytes)"

/-- R8 `POS_WIDTH`, OPEN: the width in bits of a position register of an implementation. Read by the record word only. -/
opaque posWidth : Nat

/-- R8 `SAMPLE_RATE`, OPEN: read by no rule. -/
opaque sampleRate : Nat

/-- R8, R89 `META_NAME`, OPEN: the human name shown to the host. -/
opaque metaName : String

/-- R8, R89 `META_DESC`, OPEN: the description shown to the host. -/
opaque metaDesc : String

/-- R8, R89 `META_CHANNEL`, OPEN: the name of the one input channel. -/
opaque metaChannel : String

/-- Free value (R29, U5; log 5): the byte found in an invalid buffer entry. The first argument is the model's counter
`staleReads`, the second the entry's index. -/
opaque staleByte : Nat → Nat → Byte

/-- Free value (R30, U5; log 5): the span start found in an invalid entry of the index buffer. -/
opaque staleStart : Nat → Nat → Nat

/-- Free value (R30, U5; log 5): the span end found in an invalid entry of the index buffer. -/
opaque staleEnd : Nat → Nat → Nat

/-- Free value (R79; log 21): the text of a BITVAL record whose data is neither 0 nor 1. Read by the rendering only. -/
opaque bitText : Byte → String

end Sys2Proof.Config
end

