-- ==== Sys2Proof/Syntax.lean ====
section
/-! DEFINITION. Syntax.lean: the named codes of the block (control states, roles, record categories and labels), its
instructions, one constructor per row of the opcode table (R86), and the word an instruction is read from (R87). -/

namespace Sys2Proof

/-- R22, R81: the control state, which names the cursor operation the block is inside. Codes 5 to 7 are unreachable and
have no value here (R84, U6). -/
inductive Ctl where
  | hunt | first | skipLow | skipHigh | halt
deriving DecidableEq, Repr

/-- R23, R82: the kind of cell in progress or about to be read. Code 3 is unreachable and has no value here. -/
inductive Role where
  | start | data | stop
deriving DecidableEq, Repr

/-- R102: the two lengths a skip has, 16 ticks and 36 ticks. -/
inductive SkipLen where
  | low | high
deriving DecidableEq, Repr

/-- R77: the category of a record. Codes 6 and 7 are never emitted and have no value here. -/
inductive Category where
  | startBit | dataBit | stopBit | value | telegram | scsField
deriving DecidableEq, Repr

/-- R79: the label code of a record. Codes 11 to 15 are never emitted and have no value here. -/
inductive Label where
  | bitVal | byteHex | telegram | init | addr | field2 | request | field4 | goodCrc | badCrc | term
deriving DecidableEq, Repr

/-- R86: the operations, the record kinds and the transitions, in the order of the opcode table. Operands are those of
each rule's "Operands" line; for a transition, the field of its selector pattern. A field that stands for the line, the
count or the buffer an operation meets (DECODE_BYTE, LOOP, CHECKSUM) is no operand of it. -/
inductive Instr where
  /-- WAITLVL L (R100); in this block L is always 0 (`WellFormed`). -/
  | waitlvl (level : Level)
  /-- SAMPLE (R101). -/
  | sample
  /-- SKIP 16 or SKIP 36 (R102). -/
  | skip (len : SkipLen)
  /-- POS (R103). -/
  | pos
  /-- EMIT (R145). -/
  | emit (ss es : Nat) (cat : Category) (lbl : Label) (data : Byte)
  /-- RESET (R200). -/
  | reset
  /-- DEMOD.START (R110). -/
  | demodStart
  /-- DEMOD.DATA (R111). -/
  | demodData
  /-- DEMOD.STOP (R112). -/
  | demodStop
  /-- EXPECT_STOP (R121). -/
  | expectStop
  /-- DECODE_BYTE (R120). -/
  | decodeByte
  /-- CHECKSUM (R133), of the telegram in the buffer (log 16). -/
  | checksum
  /-- FLUSH (R132). -/
  | flush
  /-- APPEND (R134), of a byte and its span. -/
  | append (byte : Byte) (ss es : Nat)
  /-- LOOP (R131). -/
  | loop
  /-- EMIT.START_BIT (R146). -/
  | emitStartBit
  /-- EMIT.DATA_BIT (R147). -/
  | emitDataBit
  /-- EMIT.STOP_BIT (R148). -/
  | emitStopBit
  /-- EMIT.VALUE (R149). -/
  | emitValue
  /-- EMIT.TELEGRAM (R150). -/
  | emitTelegram
  /-- EMIT.INIT (R151). -/
  | emitInit
  /-- EMIT.ADDR (R152). -/
  | emitAddr
  /-- EMIT.FIELD2 (R153). -/
  | emitField2
  /-- EMIT.REQUEST (R154). -/
  | emitRequest
  /-- EMIT.FIELD4 (R155). -/
  | emitField4
  /-- EMIT.GOOD_CRC (R156). -/
  | emitGoodCrc
  /-- EMIT.BAD_CRC (R157). -/
  | emitBadCrc
  /-- EMIT.TERM (R158). -/
  | emitTerm
  /-- T.RESET (R161). -/
  | tReset
  /-- T.HALTED (R162). -/
  | tHalted
  /-- T.EOS (R163). -/
  | tEos
  /-- T.IDLE (R164). -/
  | tIdle
  /-- T.HUNT.MISS (R165). -/
  | tHuntMiss
  /-- T.HUNT.HIT (R166). -/
  | tHuntHit
  /-- T.FIRST (R167), with the sampled level. -/
  | tFirst (v : Level)
  /-- T.LOW.STEP (R168). -/
  | tLowStep
  /-- T.LOW.LAST (R169). -/
  | tLowLast
  /-- T.HIGH.STEP (R170). -/
  | tHighStep
  /-- T.END.START (R171). -/
  | tEndStart
  /-- T.END.DATA (R172). -/
  | tEndData
  /-- T.END.STOP (R173). -/
  | tEndStop
deriving DecidableEq, Repr

/-- R87: what a pattern of the opcode table ranges over. -/
inductive Format where
  | ctl3 | role2 | cnt3 | sel10 | ann7 | frame10 | tgm56
deriving DecidableEq, Repr

/-- The word an instruction is read from. The spec has no instruction memory (R62): `fmt` and `code` are a format of R87
and the bits its patterns range over (rightmost character of a pattern is bit 0). Patterns of one format overlap, so
`reading` says which of the rows that match `code` is meant, counted from 0 in the order of the decoder's table
(DESIGN CHOICE, log 6). `operands` holds the operands that no pattern has bits for. -/
structure InstrWord where
  fmt      : Format
  reading  : Nat
  code     : Nat
  operands : List Nat
deriving DecidableEq, Repr

end Sys2Proof
end

