-- ==== Sys2Proof/WellFormed.lean ====
section
/-! DEFINITION. WellFormed.lean: which operands an instruction of this block may carry. -/

namespace Sys2Proof

/-- WAITLVL waits for level 0 (R7, R100). Every other operand may hold any value of its type: EMIT takes any span, any
category and label that has a code in use, and any byte (R145); the codes that are never used have no value (R84). -/
def Instr.wellFormed : Instr → Bool
  | .waitlvl l => l == Config.startLevel
  | _ => true

end Sys2Proof
end

