-- ==== Sys2Proof/Decode.lean ====
section
/-! DEFINITION. Decode.lean: the codes of R77, R79, R81 and R82, the opcode table (R83, R86) as rows of mask and
pattern, the decoder, the encoder, and how a bare word of the opcode table is read. -/

namespace Sys2Proof

/-- R81: the code of a control state. -/
def ctlCode : Ctl → Nat
  | .hunt => 0
  | .first => 1
  | .skipLow => 2
  | .skipHigh => 3
  | .halt => 4

/-- R81 read backwards; codes 5 to 7 have no control state. -/
def ctlOf : Nat → Option Ctl
  | 0 => some .hunt
  | 1 => some .first
  | 2 => some .skipLow
  | 3 => some .skipHigh
  | 4 => some .halt
  | _ => none

/-- R82: the code of a role. -/
def roleCode : Role → Nat
  | .start => 0
  | .data => 1
  | .stop => 2

/-- R82 read backwards; code 3 has no role. -/
def roleOf : Nat → Option Role
  | 0 => some .start
  | 1 => some .data
  | 2 => some .stop
  | _ => none

/-- R77: the code of a category. -/
def catCode : Category → Nat
  | .startBit => 0
  | .dataBit => 1
  | .stopBit => 2
  | .value => 3
  | .telegram => 4
  | .scsField => 5

/-- R77 read backwards; codes 6 and 7 are never emitted. -/
def catOf : Nat → Option Category
  | 0 => some .startBit
  | 1 => some .dataBit
  | 2 => some .stopBit
  | 3 => some .value
  | 4 => some .telegram
  | 5 => some .scsField
  | _ => none

/-- R79: the code of a label. -/
def lblCode : Label → Nat
  | .bitVal => 0
  | .byteHex => 1
  | .telegram => 2
  | .init => 3
  | .addr => 4
  | .field2 => 5
  | .request => 6
  | .field4 => 7
  | .goodCrc => 8
  | .badCrc => 9
  | .term => 10

/-- R79 read backwards; codes 11 to 15 are never emitted. -/
def lblOf : Nat → Option Label
  | 0 => some .bitVal
  | 1 => some .byteHex
  | 2 => some .telegram
  | 3 => some .init
  | 4 => some .addr
  | 5 => some .field2
  | 6 => some .request
  | 7 => some .field4
  | 8 => some .goodCrc
  | 9 => some .badCrc
  | 10 => some .term
  | _ => none

/-- R80: the thirteen (category, label) pairs that occur in the block's own records; each of them is a record kind. -/
def recordPair : Category → Label → Bool
  | .startBit, l | .dataBit, l | .stopBit, l => l == .bitVal
  | .value, l => l == .byteHex
  | .telegram, l => l == .telegram
  | .scsField, l => !(l == .bitVal || l == .byteHex || l == .telegram)

/-- R87: the number of bits a pattern of the format has. -/
def Format.width : Format → Nat
  | .ctl3 => 3
  | .role2 => 2
  | .cnt3 => 3
  | .sel10 => 10
  | .ann7 => 7
  | .frame10 => 10
  | .tgm56 => 56

/-- Why a word names no instruction. Raised by `decode` only; safe, since no meaning is given. -/
inductive DecodeError where
  /-- The code has more bits than its format. -/
  | codeTooWide
  /-- No row of the format, or not so many of them, matches the code. -/
  | noSuchRow
  /-- A control code that no control state has (R84). -/
  | unusedCtlCode
  /-- A category code or a label code that is never used (R84, U6). -/
  | unusedRecordCode
  /-- A byte operand of more than 8 bits (R134, R145). -/
  | dataOutOfRange
  /-- APPEND with seven bytes held already (R134, precondition). -/
  | bufferFull
  /-- More operands than the instruction has. -/
  | surplusOperand
deriving DecidableEq, Repr

/-- One row of the opcode table: a code matches it when the bits that `mask` selects are those of `pattern`; `build`
reads the fields of the code and the operands. -/
structure Row where
  fmt     : Format
  mask    : Nat
  pattern : Nat
  build   : Nat → List Nat → Except DecodeError Instr

/-- A row without operands. -/
def plainRow (fmt : Format) (mask pattern : Nat) (i : Instr) : Row :=
  ⟨fmt, mask, pattern, fun _ ops => if ops.isEmpty then .ok i else .error .surplusOperand⟩

/-- A row whose one field is bit 0 of the code. -/
def bitRow (fmt : Format) (mask pattern : Nat) (f : Bool → Instr) : Row :=
  ⟨fmt, mask, pattern, fun c ops => if ops.isEmpty then .ok (f (c.testBit 0)) else .error .surplusOperand⟩

/-- POS's row: every control state has it (R103), a code that is no control state has nothing (R84). -/
def buildPos (c : Nat) (ops : List Nat) : Except DecodeError Instr :=
  if !ops.isEmpty then .error .surplusOperand
  else if (ctlOf c).isNone then .error .unusedCtlCode
  else .ok .pos

/-- APPEND's row: never code 7 (R134); the operands are the byte and its span. An operand not given reads as 0. -/
def buildAppend (c : Nat) (ops : List Nat) : Except DecodeError Instr :=
  if 3 < ops.length then .error .surplusOperand
  else if c = 7 then .error .bufferFull
  else if 256 ≤ ops.getD 0 0 then .error .dataOutOfRange
  else .ok (.append (BitVec.ofNat 8 (ops.getD 0 0)) (ops.getD 1 0) (ops.getD 2 0))

/-- EMIT's row: `cat` at bits 6 to 4, `lbl` at bits 3 to 0 (R86, R87); the operands are the span and the data, any byte (R145).
Codes 6 and 7 and 11 to 15 are refused (R84, U6). An operand not given reads as 0. -/
def buildEmit (c : Nat) (ops : List Nat) : Except DecodeError Instr :=
  match catOf (c / 16), lblOf (c % 16) with
  | some cat, some lbl =>
    if 3 < ops.length then .error .surplusOperand
    else if 256 ≤ ops.getD 2 0 then .error .dataOutOfRange
    else .ok (.emit (ops.getD 0 0) (ops.getD 1 0) cat lbl (BitVec.ofNat 8 (ops.getD 2 0)))
  | _, _ => .error .unusedRecordCode

/-- The thirteen transitions of R83, in its order. -/
def transitionRows : List Row :=
  [ plainRow .sel10 0x200 0x200 .tReset, plainRow .sel10 0x270 0x040 .tHalted, plainRow .sel10 0x340 0x100 .tEos,
    plainRow .sel10 0x3c0 0x000 .tIdle, plainRow .sel10 0x3f1 0x081 .tHuntMiss, plainRow .sel10 0x3f1 0x080 .tHuntHit,
    bitRow .sel10 0x3f0 0x090 .tFirst, plainRow .sel10 0x3f2 0x0a0 .tLowStep, plainRow .sel10 0x3f2 0x0a2 .tLowLast,
    plainRow .sel10 0x3f2 0x0b0 .tHighStep, plainRow .sel10 0x3fe 0x0b2 .tEndStart,
    plainRow .sel10 0x3fe 0x0b6 .tEndData, plainRow .sel10 0x3fe 0x0ba .tEndStop ]

/-- The thirteen record kinds (R146 to R158). -/
def recordRows : List Row :=
  [ plainRow .ann7 0x7f 0x00 .emitStartBit, plainRow .ann7 0x7f 0x10 .emitDataBit, plainRow .ann7 0x7f 0x20 .emitStopBit,
    plainRow .ann7 0x7f 0x31 .emitValue, plainRow .ann7 0x7f 0x42 .emitTelegram, plainRow .ann7 0x7f 0x53 .emitInit,
    plainRow .ann7 0x7f 0x54 .emitAddr, plainRow .ann7 0x7f 0x55 .emitField2, plainRow .ann7 0x7f 0x56 .emitRequest,
    plainRow .ann7 0x7f 0x57 .emitField4, plainRow .ann7 0x7f 0x58 .emitGoodCrc, plainRow .ann7 0x7f 0x59 .emitBadCrc,
    plainRow .ann7 0x7f 0x5a .emitTerm ]

/-- The other operations of R86. -/
def operationRows : List Row :=
  [ ⟨.ctl3, 0x7, 0x0, fun _ ops => if ops.isEmpty then .ok (.waitlvl Config.startLevel) else .error .surplusOperand⟩,
    plainRow .ctl3 0x7 0x1 .sample,
    bitRow .ctl3 0x6 0x2 (fun h => .skip (if h then .high else .low)),
    ⟨.ctl3, 0x0, 0x0, buildPos⟩,
    plainRow .role2 0x3 0x0 .demodStart, plainRow .role2 0x3 0x1 .demodData, plainRow .role2 0x3 0x2 .demodStop,
    plainRow .role2 0x3 0x2 .expectStop,
    plainRow .frame10 0x200 0x000 .decodeByte,
    plainRow .tgm56 0x0 0x0 .checksum,
    plainRow .cnt3 0x7 0x7 .flush,
    ⟨.cnt3, 0x0, 0x0, buildAppend⟩,
    plainRow .cnt3 0x0 0x0 .loop ]

/-- The opcode table: within a format, rows that fix more bits come first, so that reading 0 is the most specific. -/
def table : List Row :=
  transitionRows ++ [plainRow .sel10 0x200 0x200 .reset] ++ recordRows ++ [⟨.ann7, 0x0, 0x0, buildEmit⟩] ++ operationRows

/-- A row matches a word of its format whose code has the pattern's bits under the mask. -/
def Row.matches (r : Row) (w : InstrWord) : Bool :=
  r.fmt == w.fmt && (w.code &&& r.mask) == r.pattern

/-- The rows that match a word. -/
def matchingRows (w : InstrWord) : List Row := table.filter (·.matches w)

/-- The decoder: total, and rejecting by name. -/
def decode (w : InstrWord) : Except DecodeError Instr :=
  if 2 ^ w.fmt.width ≤ w.code then .error .codeTooWide
  else
    match (matchingRows w)[w.reading]? with
    | none => .error .noSuchRow
    | some r => r.build w.code w.operands

/-- The encoder: one word of each instruction. Bits a pattern does not examine, and fields that stand for the line,
the count or the buffer an operation meets, are 0. -/
def encode : Instr → InstrWord
  | .waitlvl _ => ⟨.ctl3, 0, 0x0, []⟩
  | .sample => ⟨.ctl3, 0, 0x1, []⟩
  | .skip .low => ⟨.ctl3, 0, 0x2, []⟩
  | .skip .high => ⟨.ctl3, 0, 0x3, []⟩
  | .pos => ⟨.ctl3, 1, 0x0, []⟩
  | .emit ss es c l d => ⟨.ann7, if recordPair c l then 1 else 0, catCode c * 16 + lblCode l, [ss, es, d.toNat]⟩
  | .reset => ⟨.sel10, 1, 0x200, []⟩
  | .demodStart => ⟨.role2, 0, 0x0, []⟩
  | .demodData => ⟨.role2, 0, 0x1, []⟩
  | .demodStop => ⟨.role2, 0, 0x2, []⟩
  | .expectStop => ⟨.role2, 1, 0x2, []⟩
  | .decodeByte => ⟨.frame10, 0, 0x000, []⟩
  | .checksum => ⟨.tgm56, 0, 0x0, []⟩
  | .flush => ⟨.cnt3, 0, 0x7, []⟩
  | .append b ss es => ⟨.cnt3, 0, 0x0, [b.toNat, ss, es]⟩
  | .loop => ⟨.cnt3, 1, 0x0, []⟩
  | .emitStartBit => ⟨.ann7, 0, 0x00, []⟩
  | .emitDataBit => ⟨.ann7, 0, 0x10, []⟩
  | .emitStopBit => ⟨.ann7, 0, 0x20, []⟩
  | .emitValue => ⟨.ann7, 0, 0x31, []⟩
  | .emitTelegram => ⟨.ann7, 0, 0x42, []⟩
  | .emitInit => ⟨.ann7, 0, 0x53, []⟩
  | .emitAddr => ⟨.ann7, 0, 0x54, []⟩
  | .emitField2 => ⟨.ann7, 0, 0x55, []⟩
  | .emitRequest => ⟨.ann7, 0, 0x56, []⟩
  | .emitField4 => ⟨.ann7, 0, 0x57, []⟩
  | .emitGoodCrc => ⟨.ann7, 0, 0x58, []⟩
  | .emitBadCrc => ⟨.ann7, 0, 0x59, []⟩
  | .emitTerm => ⟨.ann7, 0, 0x5a, []⟩
  | .tReset => ⟨.sel10, 0, 0x200, []⟩
  | .tHalted => ⟨.sel10, 0, 0x040, []⟩
  | .tEos => ⟨.sel10, 0, 0x100, []⟩
  | .tIdle => ⟨.sel10, 0, 0x000, []⟩
  | .tHuntMiss => ⟨.sel10, 0, 0x081, []⟩
  | .tHuntHit => ⟨.sel10, 0, 0x080, []⟩
  | .tFirst v => ⟨.sel10, 0, 0x090 + v.toNat, []⟩
  | .tLowStep => ⟨.sel10, 0, 0x0a0, []⟩
  | .tLowLast => ⟨.sel10, 0, 0x0a2, []⟩
  | .tHighStep => ⟨.sel10, 0, 0x0b0, []⟩
  | .tEndStart => ⟨.sel10, 0, 0x0b2, []⟩
  | .tEndData => ⟨.sel10, 0, 0x0b6, []⟩
  | .tEndStop => ⟨.sel10, 0, 0x0ba, []⟩

/-- The formats a bare table word of `nbits` bits may belong to, in the order they are tried (DESIGN CHOICE, log 6): the
table gives five formats of at most 8 bits and two of 10, so the number of bits does not name one. -/
def formatsOfBits : Nat → List Format
  | 2 => [.role2]
  | 3 => [.ctl3, .cnt3]
  | 7 => [.ann7]
  | 8 => [.ctl3, .cnt3, .role2, .ann7]
  | 10 | 16 => [.sel10, .frame10]
  | 56 => [.tgm56]
  | _ => []

/-- A bare table word in one format: reading 0, no operands. -/
def bareWord (w : Nat) (f : Format) : InstrWord := ⟨f, 0, w, []⟩

/-- The word a bare table word stands for: the first format tried whose reading 0 decodes. -/
def tableWord (nbits w : Nat) : Option InstrWord :=
  ((formatsOfBits nbits).map (bareWord w)).find? fun x => (decode x).isOk

/-- What the decoder reads from a bare word of the opcode table; none where it refuses. -/
def decodeTableWord (nbits w : Nat) : Option Instr :=
  (tableWord nbits w).bind fun x => (decode x).toOption

end Sys2Proof
end

