-- ==== Sys2Proof/Machine/State.lean ====
section
/-! DEFINITION. Machine/State.lean: the state of the block (`10_state.md`), with the port input and the record sink that the
spec calls parameters of the step (R35), and the reasons a step can stop. -/

namespace Sys2Proof.Machine

/-- R160: the host's input in one step; `pin` has a meaning only where `valid` holds. -/
structure PortIn where
  rst   : Bool
  eos   : Bool
  valid : Bool
  pin   : Level
deriving DecidableEq, Repr

/-- One valid entry of the telegram buffer and the index buffer (R29, R30). -/
structure TgEntry where
  byte : Byte
  ss   : Nat
  es   : Nat
deriving DecidableEq, Repr

/-- An annotation record (R76). -/
structure Record where
  ss   : Nat
  es   : Nat
  cat  : Category
  lbl  : Label
  data : Byte
deriving DecidableEq, Repr

/-- What an operation returns (the "returns" of the rules R100 to R133). -/
inductive Value where
  | nothing
  | level (b : Level)
  | position (p : Nat)
  | byte (b : Byte)
  | cell (v : Level) (start stop : Nat)
  | frame (b : Byte) (ss es : Nat)
deriving DecidableEq, Repr

/-- The elementary actions that R86's expansions and the rules' pseudocode make an operation of. `wait`, `sample` and `skip`
are the cursor operations, the only ones that can be suspended (R104); the others take no time. -/
inductive Action where
  /-- R100: WAITLVL. -/
  | wait (l : Level)
  /-- R101: SAMPLE. -/
  | sample
  /-- R102: SKIP, with the ticks still owed. -/
  | skip (owed : Nat)
  /-- R11 `ctl <- c`. -/
  | goto (c : Ctl)
  /-- R23: `role <- r`. -/
  | role (r : Role)
  /-- R110: `cell_start <- POS(); cell_val <- 0`. -/
  | openStart
  /-- R111: `cell_start` and `cell_val`, the level SAMPLE has returned. -/
  | openLevel
  /-- R110 to R112: the record of the cell, and what follows it. -/
  | endCell (r : Role)
  /-- R120 steps 2 and 3. -/
  | beginByte
  /-- R120 step 3: the bit is merged. -/
  | mergeBit
  /-- R120 step 4. -/
  | endData
  /-- R131: FLUSH if seven bytes are held. -/
  | flushIfPending
  /-- R134: APPEND of the byte DECODE_BYTE returns. -/
  | append
deriving DecidableEq, Repr

/-- What an operation returns when its last action is done. -/
inductive Returns where
  | nothing
  | position
  | level
  | cell
  | frame
deriving DecidableEq, Repr

/-- An operation that is suspended: what it has still to do, first the action that waits for a sample, and what it will
return (R104, log 18). -/
structure Pending where
  todo    : List Action
  returns : Returns
deriving DecidableEq, Repr

/-- How the last operation that was requested came out: the three outcomes of R12, an operation cut short by a reset
(R200), and one not performed (halted, R190, or its condition not met). No register of the block (log 4). -/
inductive Result where
  | idle
  | completed (v : Value)
  | suspended
  | ended
  | restarted
  | notPerformed
deriving DecidableEq, Repr

/-- The state. `pos` to `tg` are the block's registers (R20); `inp` and `sink` are its environment (R35, log 3);
`request`, `pending`, `result` and `staleReads` are the model's own (log 1, log 18, log 4, log 5). -/
structure State where
  /-- R21: the next sample not yet consumed. -/
  pos : Nat
  /-- R22: the control state. -/
  ctl : Ctl
  /-- R23: the role of the cell in progress. -/
  role : Role
  /-- R24: the ticks left in the current skip, 6 bits. -/
  skipCnt : BitVec 6
  /-- R25: where the current cell began. -/
  cellStart : Nat
  /-- R25: the level sampled there. -/
  cellVal : Level
  /-- R26: the data bits merged so far, 4 bits. -/
  bitIdx : BitVec 4
  /-- R26: the accumulator. -/
  acc : Byte
  /-- R27: `startbitsample`, the end of the start cell. -/
  startBitSample : Nat
  /-- R27: `byte_end`, the end of data bit 7. -/
  byteEnd : Nat
  /-- R28 to R30: `tg_byte`, `tg_ss` and `tg_es`; its length is `tg_count` (log 2). -/
  tg : List TgEntry
  /-- R160: the port input of the steps to come, next step first; no entry is no symbol. -/
  inp : List PortIn
  /-- R54: the records emitted, oldest first. -/
  sink : List Record
  /-- The operation the next step performs in place of a transition (log 1). -/
  request : Option InstrWord
  /-- The operation that is suspended, if any (R104, log 18). -/
  pending : Option Pending
  /-- How the last requested operation came out (log 4). -/
  result : Result
  /-- How many invalid buffer entries have been read (log 5). -/
  staleReads : Nat
deriving DecidableEq, Repr

/-- Why the machine stops with a fault. -/
inductive Fault where
  /-- A byte is to be stored beside seven others: the buffers have entries 0 to 6 only (R53, R58; R134's precondition).
  Raised by APPEND, LOOP and T.END.STOP. Safe (log 17): the block never reaches it, and nothing is claimed of what would follow. -/
  | bufferFull
deriving DecidableEq, Repr

/-- Why a step is refused. -/
inductive Refusal where
  /-- The instruction has no meaning yet. Raised by `exec` only; safe. -/
  | notModelled (mnemonic : String)
  /-- The step begins in a state for which R176 defines no transition (U6, log 8). Raised by `step`; safe: the block
  never reaches such a state and no behaviour is assigned to it. -/
  | undefinedSelector
  /-- The requested word names no instruction. Raised by `step`; safe. -/
  | badWord (e : DecodeError)
  /-- The requested word names a transition, which R83 selects from the port and the registers and nothing requests (log 20).
  Raised by `step`; safe: no transition is performed outside the state and the symbol its rule names. -/
  | transitionRequested
deriving DecidableEq, Repr

/-- R37, R161: every register at its reset value (log 19), the buffers empty. The environment and the model's own fields start
empty (log 1, log 3, log 4, log 5, log 18). -/
def State.reset : State where
  pos := 0
  ctl := .hunt
  role := .start
  skipCnt := 0
  cellStart := 0
  cellVal := false
  bitIdx := 0
  acc := 0
  startBitSample := 0
  byteEnd := 0
  tg := []
  inp := []
  sink := []
  request := none
  pending := none
  result := .idle
  staleReads := 0

end Sys2Proof.Machine
end

