-- ==== Sys2Proof/Machine/Operands.lean ====
section
/-! DEFINITION. Machine/Operands.lean: the input symbol of a step (R160), and where an operation's operands come from: the
buffers (R29, R30, R53) and the spans of the records (R75). -/

namespace Sys2Proof.Machine

/-- R160: the input symbol of one step. -/
inductive Symbol where
  | reset
  | eos
  | sample (b : Level)
  | idle
deriving DecidableEq, Repr

/-- R160, R187: Reset before Eos before Sample before none. -/
def PortIn.symbol (p : PortIn) : Symbol :=
  if p.rst then .reset else if p.eos then .eos else if p.valid then .sample p.pin else .idle

/-- The port with nothing presented. -/
def PortIn.quiet : PortIn := ⟨false, false, false, false⟩

/-- The port presenting one sample. -/
def PortIn.ofLevel (b : Level) : PortIn := ⟨false, false, true, b⟩

/-- The port signalling end of stream. -/
def PortIn.endOfStream : PortIn := ⟨false, true, false, false⟩

/-- The port asserting reset. -/
def PortIn.reset : PortIn := ⟨true, false, false, false⟩

/-- What the host presents in the next step; no symbol where the list is empty. -/
def State.port (s : State) : PortIn := s.inp.headD PortIn.quiet

/-- R28: `tg_count`. -/
def State.tgCount (s : State) : Nat := s.tg.length

/-- R29: whether entry `k` of the buffers is valid. -/
def State.entryValid (s : State) (k : Nat) : Bool := decide (k < s.tgCount)

/-- R29, R30: entry `k` of the three arrays. An entry that is not valid holds any value (U5, log 5). -/
def State.entry (s : State) (k : Nat) : TgEntry :=
  (s.tg[k]?).getD ⟨Config.staleByte s.staleReads k, Config.staleStart s.staleReads k, Config.staleEnd s.staleReads k⟩

/-- R29: `tg_byte[k]`. -/
def State.tgByte (s : State) (k : Nat) : Byte := (s.entry k).byte

/-- R30: `tg_ss[k]`. -/
def State.tgStart (s : State) (k : Nat) : Nat := (s.entry k).ss

/-- R30: `tg_es[k]`. -/
def State.tgEnd (s : State) (k : Nat) : Nat := (s.entry k).es

/-- R79: a bit as the data of a record, `0000000v`. -/
def bitByte (v : Level) : Byte := (BitVec.ofBool v).setWidth 8

/-- R146 to R148: the span and data of a bit record read from the cell's registers. -/
def bitRecord (cat : Category) (v : Level) (s : State) : Record :=
  ⟨s.cellStart, s.cellStart + Config.cellTicks, cat, .bitVal, bitByte v⟩

/-- R110 to R112, R171 to R173: the record of the cell that ends now, `end = POS()`. -/
def cellRecord (cat : Category) (v : Level) (s : State) : Record :=
  ⟨s.cellStart, s.pos, cat, .bitVal, bitByte v⟩

/-- R149: the value record, spanning the data cells of the byte. -/
def valueRecord (s : State) : Record := ⟨s.startBitSample, s.byteEnd, .value, .byteHex, s.acc⟩

/-- R150: the telegram record, from the first byte's start to the seventh byte's end. -/
def telegramRecord (s : State) : Record := ⟨s.tgStart 0, s.tgEnd 6, .telegram, .telegram, 0⟩

/-- R151 to R158: the record of one field, spanning byte `k`. -/
def fieldRecord (k : Nat) (lbl : Label) (s : State) : Record := ⟨s.tgStart k, s.tgEnd k, .scsField, lbl, 0⟩

/-- R23: the role selects the category of the record at cell end. -/
def roleCategory : Role → Category
  | .start => .startBit
  | .data => .dataBit
  | .stop => .stopBit

end Sys2Proof.Machine
end

