-- ==== Sys2Proof/Machine/Flags.lean ====
section
/-! DEFINITION. Machine/Flags.lean: the block stores no flag (R32); these are its derived conditions (R31, R32), its
checksum (R133) and the selector's view of the state (R83, R176). -/

namespace Sys2Proof.Machine

/-- R133: XOR of the four bytes addr, field2, request, field4. -/
def xorSum (addr field2 request field4 : Byte) : Byte := addr ^^^ field2 ^^^ request ^^^ field4

/-- R133: CHECKSUM over entries 1 to 4 of the telegram buffer. -/
def State.wantCrc (s : State) : Byte := xorSum (s.tgByte 1) (s.tgByte 2) (s.tgByte 3) (s.tgByte 4)

/-- R32 `crc_ok`; meaningful only when seven bytes are held. -/
def State.crcOk (s : State) : Bool := s.wantCrc == s.tgByte 5

/-- R31, R32 `flush_pending`. -/
def State.flushPending (s : State) : Bool := s.tgCount == Config.telegramLen

/-- R32, R185 `halted`, the status output. -/
def State.halted (s : State) : Bool := s.ctl == .halt

/-- R32 `last`: the tick being processed is the last of its skip. -/
def State.last (s : State) : Bool := s.skipCnt == 1

/-- R31: the framer's two logical states. -/
inductive Framer where
  | accumulating
  | flushPending
deriving DecidableEq, Repr

/-- R31: FLUSH-PENDING iff exactly seven bytes are held. -/
def State.framer (s : State) : Framer := if s.flushPending then .flushPending else .accumulating

/-- R176: whether the state is one for which the transitions are defined (the codes that have no value here apart). A skip
count above 36 is refused inside a skip only, as R176 and U6 name it; in HUNT, FIRST and HALT, where R84 gives it no
behaviour and no transition reads it, the step goes on (DESIGN CHOICE, log 8). -/
def State.selectable (s : State) : Bool :=
  decide (s.tgCount < Config.telegramLen) &&
    match s.ctl with
    | .hunt => s.role == .start
    | .first => s.role != .start
    | .skipLow => decide (1 ≤ s.skipCnt.toNat ∧ s.skipCnt.toNat < Config.lowSkip)
    | .skipHigh => decide (1 ≤ s.skipCnt.toNat ∧ s.skipCnt.toNat ≤ Config.highSkip)
    | .halt => true

end Sys2Proof.Machine
end

