-- ==== Sys2Proof/Machine/Ops.lean ====
section
/-! DEFINITION. Machine/Ops.lean: the named updates of the state, each what one line of the rules' pseudocode writes; taking
EndOfStream and the reset that alone leaves it; storing, flushing and emitting; and the outcomes of an operation (R12). -/

namespace Sys2Proof.Machine

/-- R102, R165: one sample is consumed. -/
def State.advance (s : State) : State := { s with pos := s.pos + 1 }

/-- R11 `ctl <- c`. -/
def State.goto (s : State) (c : Ctl) : State := { s with ctl := c }

/-- R23: `role <- r`. -/
def State.withRole (s : State) (r : Role) : State := { s with role := r }

/-- R24: `skip_cnt <- n`. -/
def State.withSkip (s : State) (n : BitVec 6) : State := { s with skipCnt := n }

/-- R25: a cell begins at the current position with the level found there. -/
def State.openCell (s : State) (v : Level) : State := { s with cellStart := s.pos, cellVal := v }

/-- R26, R27, R120 steps 2 and 3: the start cell has ended and the data bits begin. -/
def State.beginByte (s : State) : State := { s with startBitSample := s.pos, acc := 0, bitIdx := 0 }

/-- R120 step 3, R172: `acc <- acc | (cell_val << bit_idx)`, `bit_idx <- bit_idx + 1`. -/
def State.mergeBit (s : State) : State :=
  { s with acc := s.acc ||| (bitByte s.cellVal <<< s.bitIdx.toNat), bitIdx := s.bitIdx + 1 }

/-- R27, R120 step 4: `byte_end <- pos`. -/
def State.endByte (s : State) : State := { s with byteEnd := s.pos }

/-- R145: Emit, the record becomes the sink's last element. -/
def State.emit (s : State) (r : Record) : State := { s with sink := s.sink ++ [r] }

/-- R134: entry `tg_count` of the three arrays is written, `tg_count` grows by one. -/
def State.store (s : State) (e : TgEntry) : State := { s with tg := s.tg ++ [e] }

/-- R132: `tg_count <- 0`, both buffers empty. -/
def State.clearTelegram (s : State) : State := { s with tg := [] }

/-- The input still to come. -/
def State.withInp (s : State) (q : List PortIn) : State := { s with inp := q }

/-- The model's request slot (log 1). -/
def State.withRequest (s : State) (w : Option InstrWord) : State := { s with request := w }

/-- The model's record of the operation that is suspended (log 18). -/
def State.withPending (s : State) (p : Option Pending) : State := { s with pending := p }

/-- The model's record of an operation's outcome (log 4). -/
def State.withResult (s : State) (r : Result) : State := { s with result := r }

/-- One more read of invalid buffer entries: the next one may find other values (log 5). -/
def State.countStale (s : State) : State := { s with staleReads := s.staleReads + 1 }

/-- R188: taking EndOfStream. `ctl <- HALT`, every other register and both buffers keep their values, no record; nothing is
saved, control goes nowhere, and the operation in progress is abandoned with all its callers. -/
def State.raiseEndOfStream (s : State) : State := { s with ctl := .halt, pending := none }

/-- R190, R200: there is no return from EndOfStream but RESET, which gives every register its value of R37 and empties
the buffers, whatever state the block was in, and drops what was in progress. Records handed to the sink stay there. -/
def State.resetBlock (s : State) : State :=
  { s with
    pos := State.reset.pos, ctl := State.reset.ctl, role := State.reset.role, skipCnt := State.reset.skipCnt,
    cellStart := State.reset.cellStart, cellVal := State.reset.cellVal, bitIdx := State.reset.bitIdx,
    acc := State.reset.acc, startBitSample := State.reset.startBitSample, byteEnd := State.reset.byteEnd,
    tg := State.reset.tg, pending := State.reset.pending }

/-- R58: whether the buffers' list has the form the spec gives it, at most seven entries. -/
def bufferWf (tg : List TgEntry) : Bool := decide (tg.length ≤ Config.telegramLen)

/-- R134: APPEND. There is no entry 7 (R53, R58). -/
def appendEntry (e : TgEntry) (s : State) : Except Fault State :=
  if s.tgCount < Config.telegramLen then .ok (s.store e) else .error .bufferFull

/-- R156, R157: the crc record, "good crc" iff the checksum is right. -/
def crcRecord (s : State) : Record := fieldRecord 5 (if s.crcOk then .goodCrc else .badCrc) s

/-- R132: the eight records of a flush, in order. -/
def flushRecords (s : State) : List Record :=
  [ telegramRecord s, fieldRecord 0 .init s, fieldRecord 1 .addr s, fieldRecord 2 .field2 s, fieldRecord 3 .request s,
    fieldRecord 4 .field4 s, crcRecord s, fieldRecord 6 .term s ]

/-- R132: FLUSH emits its eight records and clears the buffers. -/
def flushTelegram (s : State) : State := ((flushRecords s).foldl State.emit s).clearTelegram

/-- R131: the test at the head of the loop. -/
def flushIfPending (s : State) : State := if s.flushPending then flushTelegram s else s

/-- R22, R23: what follows a cell of each role: the role and the control state. After a data cell the role stays DATA
here; the assembler makes it STOP after the eighth (R172). -/
def cellSuccessor : Role → Role × Ctl
  | .start => (.data, .first)
  | .data => (.data, .first)
  | .stop => (.start, .hunt)

/-- R110 to R112, R115: the cell ends, its one record is emitted, `ctl` and `role` become those of what follows (log 10). -/
def endCell (r : Role) (v : Level) (s : State) : State :=
  ((s.emit (cellRecord (roleCategory r) v s)).withRole (cellSuccessor r).1).goto (cellSuccessor r).2

/-- R120 step 4, R172: the byte is complete: its end, its value record, and the stop cell is next. -/
def endData (s : State) : State :=
  let s₁ := s.endByte
  (s₁.emit (valueRecord s₁)).withRole .stop

/-- R120 step 6: the byte and its span, as the registers hold them. -/
def byteEntry (s : State) : TgEntry := ⟨s.acc, s.startBitSample, s.byteEnd⟩

/-- The "returns" of an operation, read where its last action is done: after SAMPLE the current sample is the first of
the input, the values of a cell and of a byte stand in their registers (R25, R26, R27). -/
def returned : Returns → State → Value
  | .nothing, _ => .nothing
  | .position, s => .position s.pos
  | .level, s => .level s.port.pin
  | .cell, s => .cell s.cellVal s.cellStart s.pos
  | .frame, s => .frame s.acc s.startBitSample s.byteEnd

/-- R11, R188, R190: after EndOfStream no operation executes (log 11). -/
def operation (s : State) (f : State → Host.Outcome State Fault Refusal) : Host.Outcome State Fault Refusal :=
  if s.halted then .next (s.withResult .notPerformed) else f s

/-- An operation that returns nothing and takes no time (R104). -/
def completedNext (s : State) : Host.Outcome State Fault Refusal := .next (s.withResult (.completed .nothing))

/-- A step's outcome where storing a byte may find no entry. -/
def storedNext (r : Except Fault State) (f : State → State) : Host.Outcome State Fault Refusal :=
  match r with
  | .ok s => .next (f s)
  | .error e => .fault e

end Sys2Proof.Machine
end

