-- ==== Sys2Proof/Machine/Sequence.lean ====
section
/-! DEFINITION. Machine/Sequence.lean: how an operation is performed: its elementary actions one after the other, until it is
complete, is suspended for want of a sample, or is ended (R11, R12, R104). The samples are taken from the input to come: a
step without a symbol is passed over (R164, R216), none left means suspended, Eos means EndOfStream (R181), Reset means the
block is reset (R200, log 13). -/

namespace Sys2Proof.Machine

/-- R12: the outcomes of one action: done; suspended, with what is left of it; ended by EndOfStream; cut short by a reset
(log 13); or a byte that finds no buffer entry (log 17). -/
inductive Run where
  | done (s : State)
  | suspended (rest : Action) (s : State)
  | ended (s : State)
  | restarted (s : State)
  | stuck (f : Fault)
deriving DecidableEq, Repr

/-- R100: consume samples until one has level `l`; that one stays the current sample. -/
def waitFrom (l : Level) : List PortIn → State → Run
  | [], s => .suspended (.wait l) (s.withInp [])
  | p :: q, s =>
    match p.symbol with
    | .reset => .restarted (s.withInp q).resetBlock
    | .eos => .ended (s.withInp q).raiseEndOfStream
    | .idle => waitFrom l q s
    | .sample b => if b = l then .done (s.withInp (p :: q)) else waitFrom l q s.advance

/-- R101: there must be a current sample; it is not consumed and stays the first of the input. -/
def sampleFrom : List PortIn → State → Run
  | [], s => .suspended .sample (s.withInp [])
  | p :: q, s =>
    match p.symbol with
    | .reset => .restarted (s.withInp q).resetBlock
    | .eos => .ended (s.withInp q).raiseEndOfStream
    | .idle => sampleFrom q s
    | .sample _ => .done (s.withInp (p :: q))

/-- R102: consume `n` samples unseen; `skip_cnt` holds what is left. -/
def skipFrom : List PortIn → Nat → State → Run
  | q, 0, s => .done ((s.withInp q).withSkip 0)
  | [], n + 1, s => .suspended (.skip (n + 1)) ((s.withInp []).withSkip (BitVec.ofNat 6 (n + 1)))
  | p :: q, n + 1, s =>
    match p.symbol with
    | .reset => .restarted (s.withInp q).resetBlock
    | .eos => .ended ((s.withInp q).withSkip (BitVec.ofNat 6 (n + 1))).raiseEndOfStream
    | .idle => skipFrom q (n + 1) s
    | .sample _ => skipFrom q n s.advance

/-- One action. All but the three cursor operations take no time and are performed at once (R104). -/
def perform : Action → State → Run
  | .wait l, s => waitFrom l s.inp s
  | .sample, s => sampleFrom s.inp s
  | .skip n, s => skipFrom s.inp n s
  | .goto c, s => .done (s.goto c)
  | .role r, s => .done (s.withRole r)
  | .openStart, s => .done (s.openCell false)
  | .openLevel, s => .done (s.openCell s.port.pin)
  | .endCell r, s => .done (endCell r s.cellVal s)
  | .beginByte, s => .done s.beginByte
  | .mergeBit, s => .done s.mergeBit
  | .endData, s => .done (endData s)
  | .flushIfPending, s => .done (flushIfPending s)
  | .append, s =>
    match appendEntry (byteEntry s) s with
    | .ok t => .done t
    | .error f => .stuck f

/-- R11 `call`, R12, R104: the actions in order. A suspended operation is held as what it has still to do; one that
raises EndOfStream, and all its callers, perform none of their later steps. -/
def runActions (r : Returns) : List Action → State → Host.Outcome State Fault Refusal
  | [], s => .next ((s.withPending none).withResult (.completed (returned r s)))
  | a :: k, s =>
    match perform a s with
    | .done t => runActions r k t
    | .suspended b t => .next ((t.withPending (some ⟨b :: k, r⟩)).withResult .suspended)
    | .ended t => .next (t.withResult .ended)
    | .restarted t => .next (t.withResult .restarted)
    | .stuck f => .fault f

/-- R104: a suspended operation goes on where it stopped. -/
def resume (p : Pending) (s : State) : Host.Outcome State Fault Refusal := runActions p.returns p.todo s

end Sys2Proof.Machine
end

