-- ==== Sys2Proof/Machine/Cursor.lean ====
section
/-! DEFINITION. Machine/Cursor.lean: the sample cursor (`40_sample_cursor.md`): WAITLVL, SAMPLE, SKIP and POS. Performed by
themselves they write what R100 to R103 say they write: `pos`, and SKIP its count; no control state is entered (log 10). -/

namespace Sys2Proof.Machine

/-- R102, R7: the ticks of a skip. -/
def skipTicks : SkipLen → Nat
  | .low => Config.lowSkip
  | .high => Config.highSkip

/-- WAITLVL L (R100); returns the position found. -/
def execWaitlvl (l : Level) (s : State) : Host.Outcome State Fault Refusal :=
  operation s (runActions .position [.wait l])

/-- SAMPLE (R101); returns the level. -/
def execSample (s : State) : Host.Outcome State Fault Refusal := operation s (runActions .level [.sample])

/-- SKIP n (R102). -/
def execSkip (len : SkipLen) (s : State) : Host.Outcome State Fault Refusal :=
  operation s (runActions .nothing [.skip (skipTicks len)])

/-- POS (R103): returns `pos`, in every control state, HALT included. -/
def execPos (s : State) : Host.Outcome State Fault Refusal :=
  .next (s.withResult (.completed (.position s.pos)))

end Sys2Proof.Machine
end

