-- ==== Sys2Proof/Machine/Demodulator.lean ====
section
/-! DEFINITION. Machine/Demodulator.lean: the bit demodulator (`41_bit_demodulator.md`): DEMOD.START, DEMOD.DATA, DEMOD.STOP.
`ctl` names the cursor operation that a cell is inside (R22, R81, R174). -/

namespace Sys2Proof.Machine

/-- R113: from its first tick a cell is SKIP 16, SKIP 36 and its record. -/
def cellBody (r : Role) : List Action :=
  [.goto .skipLow, .skip Config.lowSkip, .goto .skipHigh, .skip Config.highSkip, .endCell r]

/-- R110: the start cell: WAITLVL 0, then a cell of value 0 (D10). -/
def startCell : List Action := [.role .start, .goto .hunt, .wait Config.startLevel, .openStart] ++ cellBody .start

/-- R111, R112: a data or stop cell: SAMPLE, then a cell of that value. `cell_start` is written with `cell_val`, at the
cell's first tick (R25, R174; log 9). -/
def levelCell (r : Role) : List Action := [.role r, .goto .first, .sample, .openLevel] ++ cellBody r

/-- DEMOD.START (R110). -/
def execDemodStart (s : State) : Host.Outcome State Fault Refusal := operation s (runActions .cell startCell)

/-- DEMOD.DATA (R111). -/
def execDemodData (s : State) : Host.Outcome State Fault Refusal := operation s (runActions .cell (levelCell .data))

/-- DEMOD.STOP (R112). -/
def execDemodStop (s : State) : Host.Outcome State Fault Refusal := operation s (runActions .cell (levelCell .stop))

end Sys2Proof.Machine
end

