-- ==== Sys2Proof/Machine/Assembler.lean ====
section
/-! DEFINITION. Machine/Assembler.lean: the byte assembler (`42_byte_assembler.md`): DECODE_BYTE and EXPECT_STOP. -/

namespace Sys2Proof.Machine

/-- R120 step 3: `n` data cells, each merged into the accumulator. -/
def dataCells : Nat → List Action
  | 0 => []
  | n + 1 => levelCell .data ++ .mergeBit :: dataCells n

/-- R121: EXPECT_STOP is DEMOD.STOP; the value is ignored. -/
def expectStop : List Action := levelCell .stop

/-- R120: one byte frame. -/
def byteFrame : List Action :=
  startCell ++ .beginByte :: (dataCells Config.dataBits ++ .endData :: expectStop)

/-- DECODE_BYTE (R120). -/
def execDecodeByte (s : State) : Host.Outcome State Fault Refusal := operation s (runActions .frame byteFrame)

/-- EXPECT_STOP (R121); returns nothing. -/
def execExpectStop (s : State) : Host.Outcome State Fault Refusal := operation s (runActions .nothing expectStop)

end Sys2Proof.Machine
end

