-- ==== Sys2Proof/Machine/Emitter.lean ====
section
/-! DEFINITION. Machine/Emitter.lean: the annotation emitter (`44_annotation_emitter.md`): EMIT and the thirteen record kinds. -/

namespace Sys2Proof.Machine

/-- R145: emitting takes no time and cannot fail. -/
def emitOne (r : State → Record) (s : State) : Host.Outcome State Fault Refusal :=
  operation s fun s => completedNext (s.emit (r s))

/-- A record read from the buffers up to entry `k`; where that entry is not valid its values are free (U5, log 5). -/
def emitFromBuffers (k : Nat) (r : State → Record) (s : State) : Host.Outcome State Fault Refusal :=
  operation s fun s => completedNext ((if s.entryValid k then s else s.countStale).emit (r s))

/-- R156, R157: the crc record that is emitted iff `crc_ok` has the value `ok` (log 15). -/
def emitCrc (ok : Bool) (lbl : Label) (s : State) : Host.Outcome State Fault Refusal :=
  operation s fun s =>
    let t := if s.entryValid 5 then s else s.countStale
    if s.crcOk = ok then completedNext (t.emit (fieldRecord 5 lbl s)) else .next (t.withResult .notPerformed)

/-- EMIT (R145). -/
def execEmit (ss es : Nat) (cat : Category) (lbl : Label) (data : Byte) (s : State) :
    Host.Outcome State Fault Refusal :=
  emitOne (fun _ => ⟨ss, es, cat, lbl, data⟩) s

/-- EMIT.START_BIT (R146): its data is 0 (D10). -/
def execEmitStartBit (s : State) : Host.Outcome State Fault Refusal := emitOne (bitRecord .startBit false) s

/-- EMIT.DATA_BIT (R147). -/
def execEmitDataBit (s : State) : Host.Outcome State Fault Refusal :=
  emitOne (fun s => bitRecord .dataBit s.cellVal s) s

/-- EMIT.STOP_BIT (R148). -/
def execEmitStopBit (s : State) : Host.Outcome State Fault Refusal :=
  emitOne (fun s => bitRecord .stopBit s.cellVal s) s

/-- EMIT.VALUE (R149). -/
def execEmitValue (s : State) : Host.Outcome State Fault Refusal := emitOne valueRecord s

/-- EMIT.TELEGRAM (R150). -/
def execEmitTelegram (s : State) : Host.Outcome State Fault Refusal := emitFromBuffers 6 telegramRecord s

/-- EMIT.INIT (R151). -/
def execEmitInit (s : State) : Host.Outcome State Fault Refusal := emitFromBuffers 0 (fieldRecord 0 .init) s

/-- EMIT.ADDR (R152). -/
def execEmitAddr (s : State) : Host.Outcome State Fault Refusal := emitFromBuffers 1 (fieldRecord 1 .addr) s

/-- EMIT.FIELD2 (R153). -/
def execEmitField2 (s : State) : Host.Outcome State Fault Refusal := emitFromBuffers 2 (fieldRecord 2 .field2) s

/-- EMIT.REQUEST (R154). -/
def execEmitRequest (s : State) : Host.Outcome State Fault Refusal := emitFromBuffers 3 (fieldRecord 3 .request) s

/-- EMIT.FIELD4 (R155). -/
def execEmitField4 (s : State) : Host.Outcome State Fault Refusal := emitFromBuffers 4 (fieldRecord 4 .field4) s

/-- EMIT.GOOD_CRC (R156). -/
def execEmitGoodCrc (s : State) : Host.Outcome State Fault Refusal := emitCrc true .goodCrc s

/-- EMIT.BAD_CRC (R157). -/
def execEmitBadCrc (s : State) : Host.Outcome State Fault Refusal := emitCrc false .badCrc s

/-- EMIT.TERM (R158). -/
def execEmitTerm (s : State) : Host.Outcome State Fault Refusal := emitFromBuffers 6 (fieldRecord 6 .term) s

end Sys2Proof.Machine
end

