-- ==== Sys2Proof/Machine/Framer.lean ====
section
/-! DEFINITION. Machine/Framer.lean: the telegram framer and checksum (`43_telegram_framer.md`): CHECKSUM, FLUSH, APPEND, LOOP,
and the operation-level run (R130). -/

namespace Sys2Proof.Machine

/-- CHECKSUM (R133): returns the XOR of the buffer's addr, field2, request, field4; init, crc and term are not part of it.
Where entry 4 is not valid the sum is of free bytes (U5, log 5). -/
def execChecksum (s : State) : Host.Outcome State Fault Refusal :=
  operation s fun s =>
    .next ((if s.entryValid 4 then s else s.countStale).withResult (.completed (.byte s.wantCrc)))

/-- FLUSH (R132): performed iff seven bytes are held (log 12). -/
def execFlush (s : State) : Host.Outcome State Fault Refusal :=
  operation s fun s =>
    if s.flushPending then completedNext (flushTelegram s) else .next (s.withResult .notPerformed)

/-- APPEND (R134). -/
def execAppend (b : Byte) (ss es : Nat) (s : State) : Host.Outcome State Fault Refusal :=
  operation s fun s => storedNext (appendEntry ⟨b, ss, es⟩ s) fun t => t.withResult (.completed .nothing)

/-- R131: one iteration: flush if pending, then one byte, then its append; there is no test after the append. -/
def loopBody : List Action := .flushIfPending :: (byteFrame ++ [.append])

/-- LOOP (R131). -/
def execLoop (s : State) : Host.Outcome State Fault Refusal := operation s (runActions .nothing loopBody)

/-- R130: LOOP repeated, at most `k` times, until it does not complete. -/
def runLoops : Nat → State → Host.Outcome State Fault Refusal
  | 0, s => .next s
  | k + 1, s =>
    match execLoop s with
    | .next t =>
      match t.result with
      | .completed _ => runLoops k t
      | _ => .next t
    | r => r

end Sys2Proof.Machine
end

