-- ==== Sys2Proof/Machine/System.lean ====
section
/-! DEFINITION. Machine/System.lean: RESET (`70_reset_and_hazards.md` R200). -/

namespace Sys2Proof.Machine

/-- RESET (R200): every register and both buffers, in any state, HALT included; no record. -/
def execReset (s : State) : Host.Outcome State Fault Refusal := completedNext s.resetBlock

end Sys2Proof.Machine
end

