-- ==== Sys2Proof/Machine/Tick.lean ====
section
/-! DEFINITION. Machine/Tick.lean: the thirteen transitions of the tick machine (`45_tick_machine.md`). A transition that is
taken has been selected by R83 from the symbol of the step and the state before it. -/

namespace Sys2Proof.Machine

/-- T.RESET (R161). -/
def execTReset (s : State) : Host.Outcome State Fault Refusal := .next s.resetBlock

/-- T.HALTED (R162): nothing changes. -/
def execTHalted (s : State) : Host.Outcome State Fault Refusal := .next s

/-- T.EOS (R163): EndOfStream is taken (R188). -/
def execTEos (s : State) : Host.Outcome State Fault Refusal := .next s.raiseEndOfStream

/-- T.IDLE (R164): nothing changes. -/
def execTIdle (s : State) : Host.Outcome State Fault Refusal := .next s

/-- T.HUNT.MISS (R165). -/
def execTHuntMiss (s : State) : Host.Outcome State Fault Refusal := .next s.advance

/-- R166, R167: a cell opens with this tick, which is the first of its 16. -/
def firstTick (v : Level) (s : State) : State :=
  (((s.openCell v).advance).withSkip (BitVec.ofNat 6 (Config.lowSkip - 1))).goto .skipLow

/-- T.HUNT.HIT (R166). -/
def execTHuntHit (s : State) : Host.Outcome State Fault Refusal := .next ((firstTick false s).withRole .start)

/-- T.FIRST (R167). -/
def execTFirst (v : Level) (s : State) : Host.Outcome State Fault Refusal := .next (firstTick v s)

/-- R168, R170: one more tick of a skip. -/
def skipTick (s : State) : State := s.advance.withSkip (s.skipCnt - 1)

/-- T.LOW.STEP (R168). -/
def execTLowStep (s : State) : Host.Outcome State Fault Refusal := .next (skipTick s)

/-- T.LOW.LAST (R169). -/
def execTLowLast (s : State) : Host.Outcome State Fault Refusal :=
  .next ((s.advance.withSkip (BitVec.ofNat 6 Config.highSkip)).goto .skipHigh)

/-- T.HIGH.STEP (R170). -/
def execTHighStep (s : State) : Host.Outcome State Fault Refusal := .next (skipTick s)

/-- R171 to R173: the 52nd tick of a cell is consumed and its record emitted. -/
def lastTick (r : Role) (v : Level) (s : State) : State := endCell r v (s.advance.withSkip 0)

/-- T.END.START (R171): the data bits of the byte begin. -/
def execTEndStart (s : State) : Host.Outcome State Fault Refusal := .next (lastTick .start false s).beginByte

/-- R172: after the eighth data bit the byte is complete. -/
def endDataIfEight (s : State) : State := if s.bitIdx.toNat = Config.dataBits then endData s else s

/-- T.END.DATA (R172): the bit is merged. -/
def execTEndData (s : State) : Host.Outcome State Fault Refusal :=
  .next (endDataIfEight (lastTick .data s.cellVal s).mergeBit)

/-- T.END.STOP (R173): APPEND, and the head of the next LOOP: FLUSH if seven bytes are held. -/
def execTEndStop (s : State) : Host.Outcome State Fault Refusal :=
  storedNext (appendEntry (byteEntry s) (lastTick .stop s.cellVal s)) flushIfPending

end Sys2Proof.Machine
end

