-- ==== Sys2Proof/Machine/Dispatch.lean ====
section
/-! DEFINITION. Machine/Dispatch.lean: one arm per constructor of Instr, each one call of its meaning. -/

namespace Sys2Proof.Machine

def exec (i : Instr) (s : State) : Host.Outcome State Fault Refusal :=
  match i with
  | .waitlvl l => Sys2Proof.Machine.execWaitlvl l s
  | .sample => Sys2Proof.Machine.execSample s
  | .skip n => Sys2Proof.Machine.execSkip n s
  | .pos => Sys2Proof.Machine.execPos s
  | .emit ss es c l d => Sys2Proof.Machine.execEmit ss es c l d s
  | .reset => Sys2Proof.Machine.execReset s
  | .demodStart => Sys2Proof.Machine.execDemodStart s
  | .demodData => Sys2Proof.Machine.execDemodData s
  | .demodStop => Sys2Proof.Machine.execDemodStop s
  | .expectStop => Sys2Proof.Machine.execExpectStop s
  | .decodeByte => Sys2Proof.Machine.execDecodeByte s
  | .checksum => Sys2Proof.Machine.execChecksum s
  | .flush => Sys2Proof.Machine.execFlush s
  | .append b ss es => Sys2Proof.Machine.execAppend b ss es s
  | .loop => Sys2Proof.Machine.execLoop s
  | .emitStartBit => Sys2Proof.Machine.execEmitStartBit s
  | .emitDataBit => Sys2Proof.Machine.execEmitDataBit s
  | .emitStopBit => Sys2Proof.Machine.execEmitStopBit s
  | .emitValue => Sys2Proof.Machine.execEmitValue s
  | .emitTelegram => Sys2Proof.Machine.execEmitTelegram s
  | .emitInit => Sys2Proof.Machine.execEmitInit s
  | .emitAddr => Sys2Proof.Machine.execEmitAddr s
  | .emitField2 => Sys2Proof.Machine.execEmitField2 s
  | .emitRequest => Sys2Proof.Machine.execEmitRequest s
  | .emitField4 => Sys2Proof.Machine.execEmitField4 s
  | .emitGoodCrc => Sys2Proof.Machine.execEmitGoodCrc s
  | .emitBadCrc => Sys2Proof.Machine.execEmitBadCrc s
  | .emitTerm => Sys2Proof.Machine.execEmitTerm s
  | .tReset => Sys2Proof.Machine.execTReset s
  | .tHalted => Sys2Proof.Machine.execTHalted s
  | .tEos => Sys2Proof.Machine.execTEos s
  | .tIdle => Sys2Proof.Machine.execTIdle s
  | .tHuntMiss => Sys2Proof.Machine.execTHuntMiss s
  | .tHuntHit => Sys2Proof.Machine.execTHuntHit s
  | .tFirst v => Sys2Proof.Machine.execTFirst v s
  | .tLowStep => Sys2Proof.Machine.execTLowStep s
  | .tLowLast => Sys2Proof.Machine.execTLowLast s
  | .tHighStep => Sys2Proof.Machine.execTHighStep s
  | .tEndStart => Sys2Proof.Machine.execTEndStart s
  | .tEndData => Sys2Proof.Machine.execTEndData s
  | .tEndStop => Sys2Proof.Machine.execTEndStop s

end Sys2Proof.Machine
end

