-- ==== Sys2Proof/Machine/Waveform.lean ====
section
/-! DEFINITION. Machine/Waveform.lean: the waveform notation of test programs (R88) and how a stream stands on the input
port, one sample per step (R160). -/

namespace Sys2Proof.Machine

/-- R88 `H^n`. -/
def highTicks (n : Nat) : List Level := List.replicate n true

/-- R88 `L^n`. -/
def lowTicks (n : Nat) : List Level := List.replicate n false

/-- R88 `Z`, a 0 cell. -/
def zeroCell : List Level := lowTicks 17 ++ highTicks 35

/-- R88 `O`, a 1 cell. -/
def oneCell : List Level := highTicks 52

/-- R88: the cell of a bit. -/
def bitCell (b : Level) : List Level := if b then oneCell else zeroCell

/-- R88: a byte frame of a given stop cell, data bit 0 first. -/
def frameOf (bits : List Level) (stop : List Level) : List Level := zeroCell ++ bits.flatMap bitCell ++ stop

/-- The bits of a byte, bit 0 first (R55). -/
def bitsOf (b : Byte) : List Level := (List.range 8).map b.getLsbD

/-- R88 `B(xx)`. -/
def byteWave (b : Byte) : List Level := frameOf (bitsOf b) oneCell

/-- R88 `B0(xx)`, the stop cell low. -/
def byteWaveLowStop (b : Byte) : List Level := frameOf (bitsOf b) (lowTicks 52)

/-- R88 `T(b0,…,b6)`. -/
def telegramWave (bs : List Byte) : List Level := bs.flatMap byteWave

/-- R160: a stream on the port, one sample per step. -/
def onLine (l : List Level) : List PortIn := l.map PortIn.ofLevel

/-- R197: a stream delivered in full, then Eos. -/
def streamThenEos (l : List Level) : List PortIn := onLine l ++ [PortIn.endOfStream]

end Sys2Proof.Machine
end

