-- ==== Sys2Proof/Machine/Fetch.lean ====
section
/-! DEFINITION. Machine/Fetch.lean: how a step finds its instruction. The block has no instruction fetch (R62): the selector of
R83, formed from the port and the registers, names the transition. The model's request slot, if it holds a word, names
an operation in its place (log 1, log 20); an operation that is suspended goes on first (R104, log 18). -/

namespace Sys2Proof.Machine

/-- R83: `sel = (rst, in_eos, in_valid, ctl[2:0], role[1:0], last, in_pin)`, left to right. -/
def selectorCode (s : State) (p : PortIn) : Nat :=
  p.rst.toNat * 2 ^ 9 + p.eos.toNat * 2 ^ 8 + p.valid.toNat * 2 ^ 7 + ctlCode s.ctl * 2 ^ 4 + roleCode s.role * 2 ^ 2
    + s.last.toNat * 2 + p.pin.toNat

/-- The selector as an instruction word. -/
def selectorWord (s : State) (p : PortIn) : InstrWord := ⟨.sel10, 0, selectorCode s p, []⟩

/-- The word the next step decodes. A request may hold any word; one that names a transition is not performed, since a
transition belongs to a selector (DESIGN CHOICE, log 20). -/
def fetchWord (s : State) : InstrWord := s.request.getD (selectorWord s s.port)

/-- What the fetch takes away: the request, or else the symbol of this step (R160: one symbol per step). -/
def passFetch (s : State) : State :=
  match s.request with
  | some _ => s.withRequest none
  | none => s.withInp s.inp.tail

/-- The thirteen transitions (R161 to R173); every other instruction is an operation. -/
def isTransition : Instr → Bool
  | .tReset | .tHalted | .tEos | .tIdle | .tHuntMiss | .tHuntHit | .tFirst _ | .tLowStep | .tLowLast | .tHighStep
  | .tEndStart | .tEndData | .tEndStop => true
  | _ => false

/-- R103, R200: the operation requested is POS or RESET, which are available in any state, also while another operation is
suspended. -/
def State.requestAvailable (s : State) : Bool :=
  match s.request with
  | none => false
  | some w =>
    match decode w with
    | .ok .pos | .ok .reset => true
    | _ => false

/-- R104: the suspended operation that this step takes up. Another request waits for it, as the agent performs one operation
at a time (R3, R59); POS and RESET do not wait (log 18). -/
def resumption (s : State) : Option Pending := if s.halted || s.requestAvailable then none else s.pending

/-- R176: the step would begin in a state for which no transition is defined. A reset is taken in any state (R161). A
requested operation is not selected from the state, so R176 does not hold it up (DESIGN CHOICE, log 8); a requested
transition is refused whatever the state (log 20). -/
def undefinedSelector (s : State) : Bool := s.request.isNone && !s.port.rst && !s.selectable

/-- A role that R176 allows with the control state. -/
def allowedRole : Ctl → Role → Role
  | .hunt, _ => .start
  | .first, .start => .data
  | _, r => r

/-- A skip count whose `last` is as asked; inside a skip one that R176 allows. -/
def countFor : Ctl → Bool → BitVec 6
  | _, true => 1
  | .skipLow, false => 2
  | .skipHigh, false => 2
  | _, false => 0

/-- The state in which the selector has the examined bits of `c`: the port's input of this step, `ctl`, `role` and
`skip_cnt`. A bit the selected row does not examine takes a value R176 allows. -/
def placeSelector (c : Nat) (s : State) : State :=
  let k := (ctlOf (c / 16 % 8)).getD s.ctl
  let r := (roleOf (c / 4 % 4)).getD s.role
  let t := (((s.goto k).withRole (allowedRole k r)).withSkip (countFor k (c.testBit 1))).withRequest none
  { t with
    inp := ⟨c.testBit 9, c.testBit 8, c.testBit 7, c.testBit 0⟩ :: s.inp, tg := s.tg.take (Config.telegramLen - 1) }

/-- R87 `frame10`: the ten cells of the pattern on the line, start cell first. -/
def frameSamples (c : Nat) : List PortIn :=
  onLine (frameOf ((List.range 8).map fun i => c.testBit (8 - i)) (if c.testBit 0 then oneCell else lowTicks 52))

/-- R87 `cnt3`, pattern `111`: seven bytes held; the missing entries are zeros. -/
def fillTelegram (s : State) : State :=
  { s with tg := (s.tg ++ List.replicate Config.telegramLen (TgEntry.mk 0 0 0)).take Config.telegramLen }

/-- The byte of a 56-bit telegram pattern that ends at bit `lo` (R74). -/
def patternByte (c lo : Nat) : Byte := BitVec.ofNat 8 (c / 2 ^ lo)

/-- R87 `tgm56`: the seven bytes of the pattern in the telegram buffer, first byte on the left; a span that is there stays. -/
def loadTelegram (c : Nat) (s : State) : State :=
  { s with
    tg := (List.range Config.telegramLen).map fun k =>
      { s.tg.getD k (TgEntry.mk 0 0 0) with byte := patternByte c (48 - 8 * k) } }

/-- Where a word stands when the next step fetches it (log 14): a selector in the port and the registers it is made of, a
byte frame on the line, FLUSH's count and CHECKSUM's bytes in the buffers; an operation's word in the request slot. -/
def placeWord (w : InstrWord) (s : State) : State :=
  match w.fmt, w.reading, w.code with
  | .sel10, 0, c => placeSelector c s
  | .frame10, _, c => (s.withInp (frameSamples c ++ s.inp)).withRequest (some w)
  | .cnt3, 0, 7 => (fillTelegram s).withRequest (some w)
  | .tgm56, _, c => (loadTelegram c s).withRequest (some w)
  | _, _, _ => s.withRequest (some w)

/-- A bare table word that no format tried can read, as a request the decoder refuses: its format has no second row. -/
def unreadWord (w : Nat) : InstrWord := ⟨.tgm56, 1, w, []⟩

end Sys2Proof.Machine
end

