-- ==== Sys2Proof/Machine/Step.lean ====
section
/-! DEFINITION. Machine/Step.lean: one step (R160), and where a word of the opcode table stands for the next step to fetch. -/

namespace Sys2Proof.Machine

/-- R160, R83: one step decodes the word it finds and performs that instruction. A suspended operation goes on first (R104,
log 18). A state for which R176 defines no transition is refused (U6, log 8), and so is a request that names a transition
(log 20). -/
def step (s : State) : Host.Outcome State Fault Refusal :=
  match resumption s with
  | some p => resume p s
  | none =>
    if undefinedSelector s then .refused .undefinedSelector
    else
      match decode (fetchWord s) with
      | .ok i => if s.request.isSome && isTransition i then .refused .transitionRequested else exec i (passFetch s)
      | .error e => .refused (.badWord e)

/-- The state in which the next step fetches and runs the instruction of a bare word of the opcode table (log 14). -/
def State.withFetchWord (s : State) (nbits w : Nat) : State :=
  match tableWord nbits w with
  | some x => placeWord x (s.withPending none)
  | none => (s.withPending none).withRequest (some (unreadWord w))

end Sys2Proof.Machine
end

