-- ==== Sys2Proof/Machine/Render.lean ====
section
/-! DEFINITION. Machine/Render.lean: what the host sees of a record outside the step: its display row (R78), its text (R79), its
word on the record port (R80), and the block's identification (R33, R89). No step reads any of it (U12). -/

namespace Sys2Proof.Machine

/-- R78: the three display rows. -/
inductive DisplayRow where
  | encoding
  | data
  | telegramScs
deriving DecidableEq, Repr

/-- R77, R78: the row of a category. -/
def displayRow : Category → DisplayRow
  | .startBit | .stopBit => .encoding
  | .dataBit | .value => .data
  | .telegram | .scsField => .telegramScs

/-- One lowercase hexadecimal digit (R8 `LABEL_HEX`, D15). -/
def hexDigit : Nat → String
  | 0 => "0"
  | 1 => "1"
  | 2 => "2"
  | 3 => "3"
  | 4 => "4"
  | 5 => "5"
  | 6 => "6"
  | 7 => "7"
  | 8 => "8"
  | 9 => "9"
  | 10 => "a"
  | 11 => "b"
  | 12 => "c"
  | 13 => "d"
  | 14 => "e"
  | _ => "f"

/-- R79: the text of a BITVAL record: the bit, `0` or `1`. R79 states no text for other data, which EMIT may carry (R145):
there the text is a free value (DESIGN CHOICE, log 21). -/
def bitValText (data : Byte) : String :=
  if data = 0 then "0" else if data = 1 then "1" else Config.bitText data

/-- R79: the text a label code and its data stand for. The labels other than BITVAL and BYTEHEX have one text, whatever data
an EMIT gives them (DESIGN CHOICE, log 21). -/
def labelText (lbl : Label) (data : Byte) : String :=
  match lbl with
  | .bitVal => bitValText data
  | .byteHex => hexDigit (data.toNat / 16) ++ hexDigit (data.toNat % 16)
  | .telegram => Config.labelTelegram
  | .init => "init"
  | .addr => "addr"
  | .field2 => "??"
  | .request => "request"
  | .field4 => "??"
  | .goodCrc => "good crc"
  | .badCrc => "bad crc"
  | .term => "term"

/-- R76: the label sequence of a record, exactly one string. -/
def Record.labels (r : Record) : List String := [labelText r.lbl r.data]

/-- R87 format `ann7`: the code pair of a record. -/
def Record.code (r : Record) : Nat := catCode r.cat * 16 + lblCode r.lbl

/-- R80: the record word for positions of `w` bits. -/
def Record.word (w : Nat) (r : Record) : Nat :=
  r.ss * 2 ^ (w + 15) + r.es * 2 ^ 15 + catCode r.cat * 2 ^ 12 + lblCode r.lbl * 2 ^ 8 + r.data.toNat

/-- R160: the records a step has put on the record port, in order. -/
def newRecords (before after : State) : List Record := after.sink.drop before.sink.length

/-- R160 `ann_valid`. -/
def annValid (before after : State) : Bool := !(newRecords before after).isEmpty

/-- R33, R89: what the block shows the host about itself. -/
structure Identification where
  protocolId  : String
  name        : String
  description : String
  channels    : List String
  categories  : List (Category × DisplayRow)

/-- R33, R89: identifier "scs", one channel, the six categories of R77 with their rows (R78). -/
def identification : Identification where
  protocolId := Config.protocolId
  name := Config.metaName
  description := Config.metaDesc
  channels := [Config.metaChannel]
  categories := [Category.startBit, .dataBit, .stopBit, .value, .telegram, .scsField].map fun c => (c, displayRow c)

end Sys2Proof.Machine
end

