-- ==== Sys2Proof/Safety.lean ====
section
/-! DEFINITION. Safety.lean: the terms the claims use: the invariant of R36, what the input to come carries, and what one byte
frame does. -/

namespace Sys2Proof.Safety

open Sys2Proof.Machine

/-- The block is hardwired: no operation is requested (log 1), and none that was requested is suspended (log 18). -/
abbrev Hardwired (s : State) : Prop := s.request = none ∧ s.pending = none

/-- R36: `ctl` and `role` fit (HUNT only with START, FIRST never with START), in the hardwired block. -/
abbrev ControlOk (s : State) : Prop :=
  Hardwired s ∧ (s.ctl = .hunt → s.role = .start) ∧ (s.ctl = .first → s.role ≠ .start)

/-- R36, R24: the skip count is inside its bounds in a skip, and 0 where a cell has not begun. -/
abbrev SkipOk (s : State) : Prop :=
  (s.ctl = .hunt ∨ s.ctl = .first → s.skipCnt = 0) ∧
  (s.ctl = .skipLow → 1 ≤ s.skipCnt.toNat ∧ s.skipCnt.toNat ≤ 15) ∧
  (s.ctl = .skipHigh → 1 ≤ s.skipCnt.toNat ∧ s.skipCnt.toNat ≤ 36)

/-- R36: `bit_idx <= 8`, and it is 8 iff the role is STOP, or START with a byte read since reset (`byte_end` is 0 until the
first byte is complete). -/
abbrev BitsOk (s : State) : Prop :=
  (s.role = .stop → s.bitIdx.toNat = 8) ∧ (s.role = .data → s.bitIdx.toNat < 8) ∧
  (s.role = .start → (s.bitIdx.toNat = 8 ∨ s.bitIdx.toNat = 0) ∧ (s.bitIdx.toNat = 8 ↔ s.byteEnd ≠ 0))

/-- R36, R27: at most six bytes are held between steps; a byte's span is 416 ticks, and 104 ticks at least lie between the
spans of two bytes. -/
abbrev BufferOk (s : State) : Prop :=
  s.tg.length ≤ 6 ∧ (∀ e ∈ s.tg, e.es = e.ss + 416) ∧ s.tg.Pairwise (fun a b => a.es + 104 ≤ b.ss)

/-- R113, R120: inside a cell the position is the cell's start and the ticks consumed; data cell `i` begins `52 * i` ticks
after `startbitsample`; the stop cell begins at `byte_end`; a start cell has value 0 (R25). -/
abbrev TimingOk (s : State) : Prop :=
  s.cellStart ≤ s.pos ∧
  (s.ctl = .skipLow → s.pos + s.skipCnt.toNat = s.cellStart + 16) ∧
  (s.ctl = .skipHigh → s.pos + s.skipCnt.toNat = s.cellStart + 52) ∧
  (s.ctl = .skipLow ∨ s.ctl = .skipHigh → s.role = .start → s.cellVal = false) ∧
  (s.role = .data → s.ctl = .first → s.pos = s.startBitSample + 52 * s.bitIdx.toNat) ∧
  (s.role = .data → s.ctl = .skipLow ∨ s.ctl = .skipHigh → s.cellStart = s.startBitSample + 52 * s.bitIdx.toNat) ∧
  (s.role = .stop → s.byteEnd = s.startBitSample + 416) ∧
  (s.role = .stop → s.ctl = .first → s.pos = s.byteEnd) ∧
  (s.role = .stop → s.ctl = .skipLow ∨ s.ctl = .skipHigh → s.cellStart = s.byteEnd)

/-- The bytes held lie before the frame in progress: the hunt begins 52 ticks after the last byte's span. -/
abbrev OrderOk (s : State) : Prop :=
  (s.ctl = .hunt → ∀ e ∈ s.tg, e.es + 52 ≤ s.pos) ∧
  (s.ctl = .skipLow ∨ s.ctl = .skipHigh → s.role = .start → ∀ e ∈ s.tg, e.es + 52 ≤ s.cellStart) ∧
  (s.ctl ≠ .halt → s.role ≠ .start → ∀ e ∈ s.tg, e.es + 104 ≤ s.startBitSample)

/-- R36: what holds of every state between two steps of the block, with the timing facts that keep it. -/
def BlockInv (s : State) : Prop := ControlOk s ∧ SkipOk s ∧ BitsOk s ∧ BufferOk s ∧ TimingOk s ∧ OrderOk s

/-- The port entry brings a sample or nothing. -/
def sampleOrIdle (p : PortIn) : Bool := !p.rst && !p.eos

/-- The levels a stretch of port input delivers. -/
def levels (q : List PortIn) : List Level := (q.filter (·.valid)).map (·.pin)

/-- A stretch of port input delivers the levels `ls` and neither Eos nor Reset. -/
def Carries (q : List PortIn) (ls : List Level) : Prop := q.all sampleOrIdle = true ∧ levels q = ls

/-- The stretch's last step brings a sample, so that nothing of it is left when that sample is consumed. -/
def EndsInSample (q : List PortIn) : Prop := ∃ p, q.getLast? = some p ∧ p.symbol = .sample p.pin

/-- The input to come begins with a stretch that delivers `ls`, ends in its last sample, and is followed by `rest`. -/
def Delivers (s : State) (ls : List Level) (rest : List PortIn) : Prop :=
  ∃ q, s.inp = q ++ rest ∧ Carries q ls ∧ EndsInSample q

/-- The block is hardwired, in a state R176 allows, and the host presents `p` in this step. -/
def Presents (s : State) (p : PortIn) (rest : List PortIn) : Prop :=
  Hardwired s ∧ s.selectable = true ∧ s.inp = p :: rest

/-- R79, column `data[7:0]`: a bit value is 0 or 1, a byte is any byte, every other label of the block's records has data 0. -/
def dataFits : Label → Byte → Bool
  | .bitVal, d => d == 0 || d == 1
  | .byteHex, _ => true
  | _, d => d == 0

/-- R200: the registers as reset leaves them, with the environment and the model's own fields of `s`. -/
def restarted (s : State) : State :=
  { State.reset with inp := s.inp, sink := s.sink, request := s.request, result := s.result, staleReads := s.staleReads }

/-- R198: how many of a frame's records have been emitted when `d` of its ticks, fewer than 520, have been consumed. -/
def recordsAfter (d : Nat) : Nat :=
  if d / 52 = 0 then 0 else 1 + min (d / 52 - 1) 8 + (if 9 ≤ d / 52 then 1 else 0)

/-- R73, R123: data bit `i` of a frame of 520 levels is the level at tick `52 * (i + 1)`. -/
def frameBit (f : List Level) (i : Nat) : Level := f.getD (52 * (i + 1)) false

/-- R123: the byte of a frame, the sum of `b_i * 2^i`. -/
def frameByte (f : List Level) : Byte :=
  BitVec.ofNat 8 (((List.range 8).map fun i => (frameBit f i).toNat * 2 ^ i).sum)

/-- R73: the level of the stop cell, at tick 468. -/
def frameStop (f : List Level) : Level := f.getD 468 false

/-- R159: the eleven records of a frame whose start bit was found at `q`. -/
def frameRecords (q : Nat) (f : List Level) : List Record :=
  [⟨q, q + 52, .startBit, .bitVal, 0⟩]
    ++ (List.range 8).map (fun i => ⟨q + 52 * (i + 1), q + 52 * (i + 2), .dataBit, .bitVal, bitByte (frameBit f i)⟩)
    ++ [⟨q + 52, q + 468, .value, .byteHex, frameByte f⟩, ⟨q + 468, q + 520, .stopBit, .bitVal, bitByte (frameStop f)⟩]

/-- R120, R122: the entry a frame found at `q` adds to the buffers. -/
def frameEntry (q : Nat) (f : List Level) : TgEntry := ⟨frameByte f, q + 52, q + 468⟩

/-- R120: the registers and the sink after DECODE_BYTE of a frame found at `q`. -/
def afterFrame (q : Nat) (f : List Level) (s : State) : State :=
  { s with
    pos := q + 520, ctl := .hunt, role := .start, skipCnt := 0, cellStart := q + 468, cellVal := frameStop f,
    bitIdx := 8, acc := frameByte f, startBitSample := q + 52, byteEnd := q + 468,
    sink := s.sink ++ frameRecords q f }

/-- R74: the buffers hold these seven entries. -/
def Holds7 (s : State) (e0 e1 e2 e3 e4 e5 e6 : TgEntry) : Prop := s.tg = [e0, e1, e2, e3, e4, e5, e6]

/-- R133: the checksum over the seven entries is right. -/
def goodSum (e1 e2 e3 e4 e5 : TgEntry) : Bool := e1.byte ^^^ e2.byte ^^^ e3.byte ^^^ e4.byte == e5.byte

/-- R132: the eight records of the flush of seven entries, in order. -/
def telegramRecords (e0 e1 e2 e3 e4 e5 e6 : TgEntry) : List Record :=
  [⟨e0.ss, e6.es, .telegram, .telegram, 0⟩, ⟨e0.ss, e0.es, .scsField, .init, 0⟩, ⟨e1.ss, e1.es, .scsField, .addr, 0⟩,
    ⟨e2.ss, e2.es, .scsField, .field2, 0⟩, ⟨e3.ss, e3.es, .scsField, .request, 0⟩, ⟨e4.ss, e4.es, .scsField, .field4, 0⟩,
    ⟨e5.ss, e5.es, .scsField, if goodSum e1 e2 e3 e4 e5 then .goodCrc else .badCrc, 0⟩,
    ⟨e6.ss, e6.es, .scsField, .term, 0⟩]

/-- The operations that are not performed while halted: all but POS and RESET; the transitions are no operations. -/
def heldByHalt (i : Instr) : Bool := !(isTransition i || i == .pos || i == .reset)

/-- R104, R181: the operations that need samples: the three cursor operations and those that call them. -/
def needsSamples : Instr → Bool
  | .waitlvl _ | .sample | .skip _ | .demodStart | .demodData | .demodStop | .expectStop | .decodeByte | .loop => true
  | _ => false

end Sys2Proof.Safety
end

