-- ==== Sys2Proof/Certificates/Slice0/Obligations.lean ====
section
/-! DEFINITION. Certificates/Slice0/Obligations.lean: the statements for the provers. Every update of a whole state
(`with`) says at once what an instruction writes and that it leaves every other field, register, buffer entry, record
and input as it was. -/

open Sys2Proof Sys2Proof.Machine Sys2Proof.Safety

/-! ### Encoding -/

/-- Decoding the word of a well-formed instruction gives it back, with every operand. The words are the model's
(log 6). -/
def Obligations.DecodeEncodeRoundTrip : Prop :=
  ∀ i : Instr, i.wellFormed = true → decode (encode i) = .ok i

/-- The decoder gives well-formed instructions only: no level but 0 for WAITLVL (R100), and of an EMIT the codes that its
word has, so that no code that R84 calls unused is read (R87). -/
def Obligations.DecodedInstructionsAreWellFormed : Prop :=
  ∀ (w : InstrWord) (i : Instr), decode w = .ok i →
    i.wellFormed = true ∧ w.code < 2 ^ w.fmt.width ∧
    ∀ ss es c l d, i = .emit ss es c l d → w.fmt = .ann7 ∧ w.code = catCode c * 16 + lblCode l

/-- R83: for every state and every port input exactly one of the thirteen rows matches the selector, and it is the one the
table names. -/
def Obligations.SelectorDecodesPerTransitionTable : Prop :=
  ∀ (s : State) (p : PortIn),
    (transitionRows.filter (·.matches (selectorWord s p))).length = 1 ∧
    decode (selectorWord s p) = .ok
      (if p.rst then .tReset
      else if s.ctl = .halt then .tHalted
      else if p.eos then .tEos
      else if !p.valid then .tIdle
      else
        match s.ctl with
        | .hunt => if p.pin then .tHuntMiss else .tHuntHit
        | .first => .tFirst p.pin
        | .skipLow => if s.skipCnt = 1 then .tLowLast else .tLowStep
        | .skipHigh =>
          if s.skipCnt = 1 then
            match s.role with
            | .start => .tEndStart
            | .data => .tEndData
            | .stop => .tEndStop
          else .tHighStep
        | .halt => .tHalted)

/-- Words written out from the spec's selector examples and patterns decode to the rows they belong to. -/
def Obligations.SpecWordsDecode : Prop :=
  decode ⟨.sel10, 0, 0b0010000000, []⟩ = .ok .tHuntHit ∧
  decode ⟨.sel10, 0, 0b0010100010, []⟩ = .ok .tLowLast ∧
  decode ⟨.sel10, 0, 0b0010110011, []⟩ = .ok .tEndStart ∧
  decode ⟨.sel10, 0, 0b0010010101, []⟩ = .ok (.tFirst true) ∧
  decode ⟨.sel10, 0, 0b0010111011, []⟩ = .ok .tEndStop ∧
  decode ⟨.ctl3, 0, 0b011, []⟩ = .ok (.skip .high) ∧
  decode ⟨.role2, 0, 0b01, []⟩ = .ok .demodData ∧
  decode ⟨.cnt3, 0, 0b111, []⟩ = .ok .flush ∧
  decode ⟨.ann7, 0, 0b1011000, []⟩ = .ok .emitGoodCrc ∧
  decode ⟨.tgm56, 0, 0x01020304050007, []⟩ = .ok .checksum

/-! ### The step -/

/-- A step runs the instruction it decodes, after the fetch has taken the symbol of this step, or the request, away. An
operation that is suspended goes on first (log 18), and a transition is not requested (log 20). -/
def Obligations.StepRunsDecodedInstruction : Prop :=
  (∀ (s : State) (i : Instr), resumption s = none → undefinedSelector s = false → decode (fetchWord s) = .ok i →
    s.request = none ∨ isTransition i = false → i.wellFormed = true →
    step s = exec i (passFetch s) ∧
    (s.request = none → fetchWord s = selectorWord s s.port ∧ passFetch s = { s with inp := s.inp.tail }) ∧
    (∀ w, s.request = some w → fetchWord s = w ∧ passFetch s = { s with request := none })) ∧
  ∀ (s : State) (p : Pending), resumption s = some p → step s = runActions p.returns p.todo s

/-- A bare word of the opcode table that the decoder reads is what the next step fetches and runs once it has been placed,
from every state. Where it is placed is the model's choice (log 14). -/
def Obligations.PlacedTableWordIsFetched : Prop :=
  ∀ (s : State) (nbits w : Nat) (i : Instr), decodeTableWord nbits w = some i →
    decode (fetchWord (s.withFetchWord nbits w)) = .ok i ∧
    step (s.withFetchWord nbits w) = exec i (passFetch (s.withFetchWord nbits w))

/-- Every step keeps the invariant of R36 and of the frame's timing (R27, R113, R120). -/
def Obligations.StepKeepsInvariant : Prop :=
  ∀ s t : State, BlockInv s → step s = .next t → BlockInv t

/-- The reset state meets the invariant. -/
def Obligations.ResetStateMeetsInvariant : Prop := BlockInv State.reset

/-- From a state that meets the invariant every step goes on, whatever the host presents: no fault, no refusal. -/
def Obligations.InvariantStatesAlwaysStep : Prop :=
  ∀ s : State, BlockInv s → ∃ t, step s = .next t

/-- R176: the states without a transition are refused, unless the host resets the block. -/
def Obligations.UndefinedStatesAreRefused : Prop :=
  ∀ s : State, Hardwired s → s.port.rst = false →
    (s.ctl = .first ∧ s.role = .start) ∨ (s.ctl = .hunt ∧ s.role ≠ .start) ∨
      (s.ctl = .skipLow ∧ (s.skipCnt = 0 ∨ 15 < s.skipCnt.toNat)) ∨
      (s.ctl = .skipHigh ∧ (s.skipCnt = 0 ∨ 36 < s.skipCnt.toNat)) ∨ s.tg.length = 7 →
    step s = .refused .undefinedSelector

/-- The position counts the samples consumed: one for each Sample step while not halted, none in any other step, and
back to 0 by reset only. -/
def Obligations.PosCountsConsumedSamples : Prop :=
  ∀ s t : State, Hardwired s → step s = .next t →
    t.pos =
      match s.port.symbol with
      | .reset => 0
      | .sample _ => if s.ctl = .halt then s.pos else s.pos + 1
      | .eos => s.pos
      | .idle => s.pos

/-- The sink is appended to only, by as many records as R175 says for each transition. -/
def Obligations.StepAppendsRecordsByTransition : Prop :=
  ∀ (s t : State) (i : Instr), Hardwired s → decode (fetchWord s) = .ok i → step s = .next t →
    ∃ rs, t.sink = s.sink ++ rs ∧
      rs.length =
        match i with
        | .tEndStart => 1
        | .tEndData => if s.bitIdx = 7 then 2 else 1
        | .tEndStop => if s.tg.length = 6 then 9 else 1
        | _ => 0

/-- Every record a step emits spans at least one tick, ends at or before the position, and has one of the thirteen code
pairs with data its label carries. -/
def Obligations.EmittedRecordsLieBehindThePosition : Prop :=
  ∀ s t : State, BlockInv s → step s = .next t →
    ∀ r ∈ newRecords s t, r.ss < r.es ∧ r.es ≤ t.pos ∧ recordPair r.cat r.lbl = true ∧ dataFits r.lbl r.data = true

/-- The host's level does not matter inside a skip: two samples of any levels lead to the same state. -/
def Obligations.SkippedLevelsAreIgnored : Prop :=
  ∀ (s : State) (p p' : PortIn) (b b' : Level) (rest : List PortIn),
    Hardwired s → s.ctl = .skipLow ∨ s.ctl = .skipHigh → p.symbol = .sample b → p'.symbol = .sample b' →
    step { s with inp := p :: rest } = step { s with inp := p' :: rest }

/-- R190: once halted, nothing changes until a reset: the steps take the host's input away and do nothing else. Whatever is
requested, only a reset leaves HALT; of the requests only RESET writes a register (the model's reading, log 11, log 20). -/
def Obligations.HaltLastsUntilReset : Prop :=
  (∀ (k : Nat) (s : State), s.request = none → s.ctl = .halt → s.tg.length ≤ 6 →
    (∀ p ∈ s.inp.take k, p.rst = false) → core.run k s = .next { s with inp := s.inp.drop k }) ∧
  ∀ s t : State, s.ctl = .halt → step s = .next t →
    t = { s with inp := t.inp, request := t.request, result := t.result } ∨
      (t = { restarted s with inp := t.inp, request := t.request, result := t.result } ∧
        ((s.request = none ∧ s.port.rst = true) ∨ ∃ w, s.request = some w ∧ decode w = .ok .reset))

/-- Steps without a symbol may be inserted anywhere: the input with them and the input without them lead to one state. -/
def Obligations.IdleStepsChangeNothing : Prop :=
  ∀ (q : List PortIn) (s t u : State), BlockInv s →
    core.run q.length { s with inp := q } = .next t →
    core.run (q.filter fun p => decide (p.symbol ≠ .idle)).length
      { s with inp := q.filter fun p => decide (p.symbol ≠ .idle) } = .next u →
    t = u

/-! ### The transitions -/

/-- R161. -/
def Obligations.ResetTransitionClearsRegisters : Prop :=
  ∀ s : State,
    exec .tReset s = .next { s with
      pos := 0, ctl := .hunt, role := .start, skipCnt := 0, cellStart := 0, cellVal := false, bitIdx := 0, acc := 0,
      startBitSample := 0, byteEnd := 0, tg := [], pending := none } ∧
    ∀ p rest, Hardwired s → s.inp = p :: rest → p.rst = true → step s = exec .tReset { s with inp := rest }

/-- R162. -/
def Obligations.HaltedTransitionChangesNothing : Prop :=
  ∀ s : State,
    exec .tHalted s = .next s ∧
    ∀ p rest, Presents s p rest → s.ctl = .halt → p.rst = false → step s = exec .tHalted { s with inp := rest }

/-- R163, R188: Eos halts, whether or not a sample is presented with it, and writes nothing else. -/
def Obligations.EosTransitionHalts : Prop :=
  ∀ s : State,
    exec .tEos s = .next { s with ctl := .halt, pending := none } ∧
    ∀ p rest, Presents s p rest → s.ctl ≠ .halt → p.rst = false → p.eos = true →
      step s = exec .tEos { s with inp := rest }

/-- R164. -/
def Obligations.IdleTransitionChangesNothing : Prop :=
  ∀ s : State,
    exec .tIdle s = .next s ∧
    ∀ p rest, Presents s p rest → s.ctl ≠ .halt → p.symbol = .idle → step s = exec .tIdle { s with inp := rest }

/-- R165. -/
def Obligations.HuntMissConsumesHighSample : Prop :=
  ∀ s : State,
    exec .tHuntMiss s = .next { s with pos := s.pos + 1 } ∧
    ∀ p rest, Presents s p rest → s.ctl = .hunt → p.symbol = .sample true →
      step s = exec .tHuntMiss { s with inp := rest }

/-- R166. -/
def Obligations.HuntHitOpensStartCell : Prop :=
  ∀ s : State,
    exec .tHuntHit s = .next { s with
      cellStart := s.pos, cellVal := false, role := .start, pos := s.pos + 1, skipCnt := 15, ctl := .skipLow } ∧
    ∀ p rest, Presents s p rest → s.ctl = .hunt → p.symbol = .sample false →
      step s = exec .tHuntHit { s with inp := rest }

/-- R167. -/
def Obligations.FirstTickSamplesCellValue : Prop :=
  ∀ (s : State) (b : Level),
    exec (.tFirst b) s = .next { s with
      cellStart := s.pos, cellVal := b, pos := s.pos + 1, skipCnt := 15, ctl := .skipLow } ∧
    ∀ p rest, Presents s p rest → s.ctl = .first → p.symbol = .sample b →
      step s = exec (.tFirst b) { s with inp := rest }

/-- R168. -/
def Obligations.LowStepCountsDown : Prop :=
  ∀ s : State,
    exec .tLowStep s = .next { s with pos := s.pos + 1, skipCnt := s.skipCnt - 1 } ∧
    ∀ p b rest, Presents s p rest → s.ctl = .skipLow → 1 < s.skipCnt.toNat → p.symbol = .sample b →
      step s = exec .tLowStep { s with inp := rest }

/-- R169. -/
def Obligations.LowLastBeginsHighSkip : Prop :=
  ∀ s : State,
    exec .tLowLast s = .next { s with pos := s.pos + 1, skipCnt := 36, ctl := .skipHigh } ∧
    ∀ p b rest, Presents s p rest → s.ctl = .skipLow → s.skipCnt = 1 → p.symbol = .sample b →
      step s = exec .tLowLast { s with inp := rest }

/-- R170. -/
def Obligations.HighStepCountsDown : Prop :=
  ∀ s : State,
    exec .tHighStep s = .next { s with pos := s.pos + 1, skipCnt := s.skipCnt - 1 } ∧
    ∀ p b rest, Presents s p rest → s.ctl = .skipHigh → 1 < s.skipCnt.toNat → p.symbol = .sample b →
      step s = exec .tHighStep { s with inp := rest }

/-- R171. -/
def Obligations.EndStartBeginsByte : Prop :=
  ∀ s : State,
    exec .tEndStart s = .next { s with
      pos := s.pos + 1, skipCnt := 0, sink := s.sink ++ [⟨s.cellStart, s.pos + 1, .startBit, .bitVal, 0⟩],
      startBitSample := s.pos + 1, acc := 0, bitIdx := 0, role := .data, ctl := .first } ∧
    ∀ p b rest, Presents s p rest → s.ctl = .skipHigh → s.skipCnt = 1 → s.role = .start → p.symbol = .sample b →
      step s = exec .tEndStart { s with inp := rest }

/-- R172. The rule's premise is role DATA; where the transition is performed the role stays DATA or becomes STOP. -/
def Obligations.EndDataMergesBit : Prop :=
  ∀ s : State,
    (s.bitIdx + 1 ≠ 8 →
      exec .tEndData s = .next { s with
        pos := s.pos + 1, skipCnt := 0,
        sink := s.sink ++ [⟨s.cellStart, s.pos + 1, .dataBit, .bitVal, bitByte s.cellVal⟩],
        acc := s.acc ||| (bitByte s.cellVal <<< s.bitIdx.toNat), bitIdx := s.bitIdx + 1, role := .data,
        ctl := .first }) ∧
    (s.bitIdx + 1 = 8 →
      exec .tEndData s = .next { s with
        pos := s.pos + 1, skipCnt := 0,
        sink := s.sink ++ [⟨s.cellStart, s.pos + 1, .dataBit, .bitVal, bitByte s.cellVal⟩]
          ++ [⟨s.startBitSample, s.pos + 1, .value, .byteHex,
            s.acc ||| (bitByte s.cellVal <<< s.bitIdx.toNat)⟩],
        acc := s.acc ||| (bitByte s.cellVal <<< s.bitIdx.toNat), bitIdx := s.bitIdx + 1, byteEnd := s.pos + 1,
        role := .stop, ctl := .first }) ∧
    ∀ p b rest, Presents s p rest → s.ctl = .skipHigh → s.skipCnt = 1 → s.role = .data → p.symbol = .sample b →
      step s = exec .tEndData { s with inp := rest }

/-- R173: APPEND, and FLUSH when the byte is the seventh. -/
def Obligations.EndStopAppendsAndFlushesAtSeven : Prop :=
  ∀ s : State,
    (s.tg.length < 6 →
      exec .tEndStop s = .next { s with
        pos := s.pos + 1, skipCnt := 0,
        sink := s.sink ++ [⟨s.cellStart, s.pos + 1, .stopBit, .bitVal, bitByte s.cellVal⟩],
        tg := s.tg ++ [⟨s.acc, s.startBitSample, s.byteEnd⟩], role := .start, ctl := .hunt }) ∧
    (∀ e0 e1 e2 e3 e4 e5, s.tg = [e0, e1, e2, e3, e4, e5] →
      exec .tEndStop s = .next { s with
        pos := s.pos + 1, skipCnt := 0,
        sink := s.sink ++ [⟨s.cellStart, s.pos + 1, .stopBit, .bitVal, bitByte s.cellVal⟩]
          ++ telegramRecords e0 e1 e2 e3 e4 e5 ⟨s.acc, s.startBitSample, s.byteEnd⟩,
        tg := [], role := .start, ctl := .hunt }) ∧
    ∀ p b rest, Presents s p rest → s.ctl = .skipHigh → s.skipCnt = 1 → s.role = .stop → p.symbol = .sample b →
      step s = exec .tEndStop { s with inp := rest }

/-! ### The cursor -/

/-- R100: WAITLVL, after `k` samples of the other level: it completes at the first sample that has the level, raises
EndOfStream if there is none, is suspended if none has been delivered yet. `pos` is the one register it writes, and `ctl`
at EndOfStream (R188); that it enters no control state is the model's choice (log 10), how the suspended operation is held
is too (log 18), and so is the clause for a reset, which abandons it (log 13). -/
def Obligations.WaitlvlOutcomes : Prop :=
  ∀ (l : Level) (s : State) (k : Nat) (q rest : List PortIn), s.ctl ≠ .halt → s.inp = q ++ rest →
    Carries q (List.replicate k (!l)) →
    (∀ p r, rest = p :: r → p.symbol = .sample l →
      exec (.waitlvl l) s = .next { s with
        pos := s.pos + k, inp := rest, pending := none, result := .completed (.position (s.pos + k)) }) ∧
    (∀ p r, rest = p :: r → p.symbol = .eos →
      exec (.waitlvl l) s = .next { s with
        pos := s.pos + k, ctl := .halt, inp := r, pending := none, result := .ended }) ∧
    (rest = [] →
      exec (.waitlvl l) s = .next { s with
        pos := s.pos + k, inp := [], pending := some ⟨[.wait l], .position⟩, result := .suspended }) ∧
    (∀ p r, rest = p :: r → p.symbol = .reset →
      exec (.waitlvl l) s = .next { restarted s with inp := r, result := .restarted })

/-- R101: SAMPLE returns the level of the current sample, consumes nothing and writes no register; at the end of the
stream it raises EndOfStream; with no sample delivered it is suspended. R57: it is idempotent. That it enters no control
state is the model's choice (log 10), how the suspended operation is held is too (log 18), and so is the clause for a
reset, which abandons it (log 13). -/
def Obligations.SampleOutcomes : Prop :=
  ∀ (s : State) (q rest : List PortIn), s.ctl ≠ .halt → s.inp = q ++ rest → Carries q [] →
    (∀ p r b, rest = p :: r → p.symbol = .sample b →
      ∃ t, t = { s with inp := rest, pending := none, result := .completed (.level b) } ∧
        exec .sample s = .next t ∧ exec .sample t = .next t) ∧
    (∀ p r, rest = p :: r → p.symbol = .eos →
      exec .sample s = .next { s with ctl := .halt, inp := r, pending := none, result := .ended }) ∧
    (rest = [] →
      exec .sample s = .next { s with inp := [], pending := some ⟨[.sample], .level⟩, result := .suspended }) ∧
    (∀ p r, rest = p :: r → p.symbol = .reset →
      exec .sample s = .next { restarted s with inp := r, result := .restarted })

/-- R102: SKIP 16 and SKIP 36 consume exactly their ticks whatever the levels, need no sample beyond them, and with fewer
delivered raise EndOfStream or are suspended with the remainder in `skip_cnt`. That `skip_cnt` is 0 after a completed skip
and no control state is entered is the model's choice (log 10), how the suspended operation is held is too (log 18), and so
is the clause for a reset, which abandons it (log 13). -/
def Obligations.SkipOutcomes : Prop :=
  ∀ (len : SkipLen) (n : Nat) (s : State) (ls : List Level),
    (len = .low ∧ n = 16) ∨ (len = .high ∧ n = 36) → s.ctl ≠ .halt →
    (∀ rest, ls.length = n → Delivers s ls rest →
      exec (.skip len) s = .next { s with
        pos := s.pos + n, skipCnt := 0, inp := rest, pending := none, result := .completed .nothing }) ∧
    (∀ q p r, ls.length < n → s.inp = q ++ p :: r → Carries q ls → p.symbol = .eos →
      exec (.skip len) s = .next { s with
        pos := s.pos + ls.length, ctl := .halt, skipCnt := BitVec.ofNat 6 (n - ls.length), inp := r, pending := none,
        result := .ended }) ∧
    (ls.length < n → Carries s.inp ls →
      exec (.skip len) s = .next { s with
        pos := s.pos + ls.length, skipCnt := BitVec.ofNat 6 (n - ls.length), inp := [],
        pending := some ⟨[.skip (n - ls.length)], .nothing⟩, result := .suspended }) ∧
    (∀ q p r, ls.length < n → s.inp = q ++ p :: r → Carries q ls → p.symbol = .reset →
      exec (.skip len) s = .next { restarted s with inp := r, result := .restarted })

/-- R11, R12, R104: an operation that is suspended holds its state and goes on when the host delivers more: what it then
does is what it would have done had everything been delivered at once. With nothing delivered it stays as it is, and
another request waits (log 18); POS and RESET are available meanwhile (R103, R200). -/
def Obligations.SuspendedOperationResumes : Prop :=
  ∀ (i : Instr) (s t : State) (q : List PortIn), needsSamples i = true → s.ctl ≠ .halt →
    exec i { s with inp := q } = .next t → t.result = .suspended →
    t.inp = [] ∧ t.pending ≠ none ∧ t.ctl ≠ .halt ∧ s.pos ≤ t.pos ∧
    (∀ r, s.requestAvailable = false → step { t with inp := r } = exec i { s with inp := q ++ r }) ∧
    (s.requestAvailable = false → step t = .next t) ∧
    (∀ r w, decode w = .ok .pos →
      step { t with inp := r, request := some w } =
        .next { t with inp := r, request := none, result := .completed (.position t.pos) }) ∧
    ∀ r w, decode w = .ok .reset →
      step { t with inp := r, request := some w } =
        .next { restarted t with inp := r, request := none, result := .completed .nothing }

/-- R103: POS returns the position, in every control state, and writes no register. -/
def Obligations.PosReturnsPosition : Prop :=
  ∀ s : State, exec .pos s = .next { s with result := .completed (.position s.pos) }

/-! ### The demodulator and the assembler -/

/-- R110: after `k` high samples the start cell takes 52 samples from the first low one; its record has value 0. The role
and the control state afterwards are DEDUCED (log 10). -/
def Obligations.DemodStartReadsStartCell : Prop :=
  ∀ (s : State) (k : Nat) (ls : List Level) (rest : List PortIn), s.ctl ≠ .halt → ls.length = 51 →
    Delivers s (List.replicate k true ++ false :: ls) rest →
    exec .demodStart s = .next { s with
      pos := s.pos + k + 52, cellStart := s.pos + k, cellVal := false, skipCnt := 0, role := .data, ctl := .first,
      inp := rest, pending := none, sink := s.sink ++ [⟨s.pos + k, s.pos + k + 52, .startBit, .bitVal, 0⟩],
      result := .completed (.cell false (s.pos + k) (s.pos + k + 52)) }

/-- R111: a data cell takes the level of its first tick and 52 samples in all. The control state afterwards is DEDUCED
(log 10). -/
def Obligations.DemodDataReadsDataCell : Prop :=
  ∀ (s : State) (b : Level) (ls : List Level) (rest : List PortIn), s.ctl ≠ .halt → ls.length = 51 →
    Delivers s (b :: ls) rest →
    exec .demodData s = .next { s with
      pos := s.pos + 52, cellStart := s.pos, cellVal := b, skipCnt := 0, role := .data, ctl := .first, inp := rest,
      pending := none, sink := s.sink ++ [⟨s.pos, s.pos + 52, .dataBit, .bitVal, bitByte b⟩],
      result := .completed (.cell b s.pos (s.pos + 52)) }

/-- R112, R121: a stop cell is read like a data cell, either level being accepted; EXPECT_STOP is the same operation but
returns nothing. The role and the control state afterwards are DEDUCED (log 10). -/
def Obligations.StopCellIsReadNotChecked : Prop :=
  ∀ (s : State) (b : Level) (ls : List Level) (rest : List PortIn), s.ctl ≠ .halt → ls.length = 51 →
    Delivers s (b :: ls) rest →
    exec .demodStop s = .next { s with
      pos := s.pos + 52, cellStart := s.pos, cellVal := b, skipCnt := 0, role := .start, ctl := .hunt, inp := rest,
      pending := none, sink := s.sink ++ [⟨s.pos, s.pos + 52, .stopBit, .bitVal, bitByte b⟩],
      result := .completed (.cell b s.pos (s.pos + 52)) } ∧
    exec .expectStop s = .next { s with
      pos := s.pos + 52, cellStart := s.pos, cellVal := b, skipCnt := 0, role := .start, ctl := .hunt, inp := rest,
      pending := none, sink := s.sink ++ [⟨s.pos, s.pos + 52, .stopBit, .bitVal, bitByte b⟩],
      result := .completed .nothing }

/-- R110 to R112, R115: a cell whose 52 samples do not all arrive before Eos emits no record and halts the block. -/
def Obligations.UnfinishedCellEmitsNothing : Prop :=
  ∀ (i : Instr) (s : State) (k : Nat) (ls : List Level) (q r : List PortIn) (p : PortIn), s.ctl ≠ .halt →
    s.inp = q ++ p :: r → p.symbol = .eos → Carries q (List.replicate k true ++ ls) → ls.length < 52 →
    (i = .demodStart ∧ (ls = [] ∨ ls.head? = some false)) ∨
      ((i = .demodData ∨ i = .demodStop ∨ i = .expectStop) ∧ k = 0) →
    ∃ t, exec i s = .next t ∧ t.ctl = .halt ∧ t.pos = s.pos + k + ls.length ∧ t.sink = s.sink ∧ t.tg = s.tg ∧
      t.inp = r ∧ t.pending = none ∧ t.result = .ended ∧ t.acc = s.acc ∧ t.bitIdx = s.bitIdx ∧
      t.startBitSample = s.startBitSample ∧ t.byteEnd = s.byteEnd

/-- R120, R123: after `k` high samples DECODE_BYTE takes the 520 samples of a frame whose first is low, returns the byte
`sum(b_i << i)` of the levels at the value ticks with the span of its data cells, and emits its eleven records. -/
def Obligations.DecodeByteReadsFrame : Prop :=
  ∀ (s : State) (k : Nat) (f : List Level) (rest : List PortIn), s.ctl ≠ .halt → f.length = 520 →
    f.head? = some false → Delivers s (List.replicate k true ++ f) rest →
    exec .decodeByte s = .next { afterFrame (s.pos + k) f s with
      inp := rest, pending := none, result := .completed (.frame (frameByte f) (s.pos + k + 52) (s.pos + k + 468)) }

/-- R120, R131: a frame cut short by Eos emits the records of its completed cells only, and its byte is not appended. -/
def Obligations.CutFrameIsNotAppended : Prop :=
  ∀ (i : Instr) (s : State) (k : Nat) (f : List Level) (q r : List PortIn) (p : PortIn),
    i = .decodeByte ∨ i = .loop → s.ctl ≠ .halt → s.tg.length < 7 → s.inp = q ++ p :: r → p.symbol = .eos →
    Carries q (List.replicate k true ++ f) → f.length < 520 → f = [] ∨ f.head? = some false →
    ∃ t, exec i s = .next t ∧ t.ctl = .halt ∧ t.pos = s.pos + k + f.length ∧ t.tg = s.tg ∧ t.inp = r ∧
      t.sink = s.sink ++ (frameRecords (s.pos + k) f).take (recordsAfter f.length) ∧ t.pending = none ∧
      t.result = .ended

/-! ### The framer -/

/-- R131, R136: LOOP flushes first if seven bytes are held, then reads one frame, then appends its byte; seven bytes after
the append stay unflushed. -/
def Obligations.LoopFlushesThenDecodesThenAppends : Prop :=
  ∀ (s : State) (k : Nat) (f : List Level) (rest : List PortIn), s.ctl ≠ .halt → f.length = 520 →
    f.head? = some false → Delivers s (List.replicate k true ++ f) rest →
    (s.tg.length < 7 →
      exec .loop s = .next { afterFrame (s.pos + k) f s with
        tg := s.tg ++ [frameEntry (s.pos + k) f], inp := rest, pending := none, result := .completed .nothing }) ∧
    (∀ e0 e1 e2 e3 e4 e5 e6, Holds7 s e0 e1 e2 e3 e4 e5 e6 →
      exec .loop s = .next { afterFrame (s.pos + k) f s with
        sink := s.sink ++ telegramRecords e0 e1 e2 e3 e4 e5 e6 ++ frameRecords (s.pos + k) f,
        tg := [frameEntry (s.pos + k) f], inp := rest, pending := none, result := .completed .nothing })

/-- R132: FLUSH emits its eight records in order and empties the buffers. It is performed iff seven bytes are held: with
any other count nothing happens, which is the model's reading of a bare FLUSH (log 12). -/
def Obligations.FlushEmitsEightRecordsAndClears : Prop :=
  ∀ s : State, s.ctl ≠ .halt →
    (∀ e0 e1 e2 e3 e4 e5 e6, Holds7 s e0 e1 e2 e3 e4 e5 e6 →
      exec .flush s = .next { s with
        sink := s.sink ++ telegramRecords e0 e1 e2 e3 e4 e5 e6, tg := [], result := .completed .nothing }) ∧
    (s.tg.length ≠ 7 → exec .flush s = .next { s with result := .notPerformed })

/-- R133: CHECKSUM returns the XOR of the buffer's addr, field2, request and field4; init, crc and term are not part of it.
With fewer than five bytes held it returns some byte (free, U5, log 5). -/
def Obligations.ChecksumIsXorOfFourBytes : Prop :=
  ∀ s : State, s.ctl ≠ .halt →
    (∀ e0 e1 e2 e3 e4 rest, s.tg = e0 :: e1 :: e2 :: e3 :: e4 :: rest →
      exec .checksum s =
        .next { s with result := .completed (.byte (e1.byte ^^^ e2.byte ^^^ e3.byte ^^^ e4.byte)) }) ∧
    (s.tg.length < 5 →
      ∃ b, exec .checksum s = .next { s with staleReads := s.staleReads + 1, result := .completed (.byte b) })

/-- R133: of seven bytes held, flipping one bit of any of bytes 1 to 5 turns a right checksum into a wrong one, and no
change of byte 0 or byte 6 changes the verdict. -/
def Obligations.ChecksumDetectsSingleBitFlips : Prop :=
  ∀ (s : State) (e0 e1 e2 e3 e4 e5 e6 : TgEntry), Holds7 s e0 e1 e2 e3 e4 e5 e6 →
    (s.crcOk = true → ∀ k j : Nat, 1 ≤ k → k ≤ 5 → j < 8 →
      ({ s with tg := s.tg.modify k fun e => { e with byte := e.byte ^^^ (1#8 <<< j) } } : State).crcOk = false) ∧
    (∀ (k : Nat) (b : Byte), k = 0 ∨ k = 6 →
      ({ s with tg := s.tg.modify k fun e => { e with byte := b } } : State).crcOk = s.crcOk)

/-- R134: APPEND writes entry `tg_count` of the three arrays. -/
def Obligations.AppendStoresEntry : Prop :=
  ∀ (b : Byte) (ss es : Nat) (s : State), s.ctl ≠ .halt → s.tg.length < 7 →
    exec (.append b ss es) s = .next { s with tg := s.tg ++ [⟨b, ss, es⟩], result := .completed .nothing } ∧
    (s.tg ++ [(⟨b, ss, es⟩ : TgEntry)])[s.tg.length]? = some ⟨b, ss, es⟩

/-- There is no entry 7 (R53, R58): with seven bytes held, storing another faults, in APPEND and in T.END.STOP (the model's
choice, log 17). -/
def Obligations.StoringAnEighthByteFaults : Prop :=
  ∀ (b : Byte) (ss es : Nat) (s : State), 7 ≤ s.tg.length →
    (s.ctl ≠ .halt → exec (.append b ss es) s = .fault .bufferFull) ∧ exec .tEndStop s = .fault .bufferFull

/-- No instruction and no step leaves more than seven entries in the buffers. -/
def Obligations.BuffersNeverHoldMoreThanSeven : Prop :=
  (∀ (i : Instr) (s t : State), bufferWf s.tg = true → exec i s = .next t → bufferWf t.tg = true) ∧
  ∀ s t : State, bufferWf s.tg = true → step s = .next t → bufferWf t.tg = true

/-! ### The emitter -/

/-- R145: EMIT appends its record, whatever its five operands are, as the sink's new last element and writes nothing else. -/
def Obligations.EmitAppendsRecord : Prop :=
  ∀ (ss es : Nat) (c : Category) (l : Label) (d : Byte) (s : State), s.ctl ≠ .halt →
    exec (.emit ss es c l d) s = .next { s with sink := s.sink ++ [⟨ss, es, c, l, d⟩], result := .completed .nothing }

/-- R146 to R149: the records of the cells and of the byte, with code pair, text and display row. -/
def Obligations.BitAndValueRecordKinds : Prop :=
  ∀ s : State, s.ctl ≠ .halt →
    (∃ r : Record, r = ⟨s.cellStart, s.cellStart + 52, .startBit, .bitVal, 0⟩ ∧ r.code = 0x00 ∧ r.labels = ["0"] ∧
      displayRow r.cat = .encoding ∧
      exec .emitStartBit s = .next { s with sink := s.sink ++ [r], result := .completed .nothing }) ∧
    (∃ r : Record, r = ⟨s.cellStart, s.cellStart + 52, .dataBit, .bitVal, bitByte s.cellVal⟩ ∧ r.code = 0x10 ∧
      r.labels = [if s.cellVal then "1" else "0"] ∧ displayRow r.cat = .data ∧
      exec .emitDataBit s = .next { s with sink := s.sink ++ [r], result := .completed .nothing }) ∧
    (∃ r : Record, r = ⟨s.cellStart, s.cellStart + 52, .stopBit, .bitVal, bitByte s.cellVal⟩ ∧ r.code = 0x20 ∧
      r.labels = [if s.cellVal then "1" else "0"] ∧ displayRow r.cat = .encoding ∧
      exec .emitStopBit s = .next { s with sink := s.sink ++ [r], result := .completed .nothing }) ∧
    (∃ r : Record, r = ⟨s.startBitSample, s.byteEnd, .value, .byteHex, s.acc⟩ ∧ r.code = 0x31 ∧
      r.labels = [hexDigit (s.acc.toNat / 16) ++ hexDigit (s.acc.toNat % 16)] ∧ displayRow r.cat = .data ∧
      exec .emitValue s = .next { s with sink := s.sink ++ [r], result := .completed .nothing })

/-- R150 to R155, R158: the telegram record and the field records of seven bytes held. -/
def Obligations.TelegramAndFieldRecordKinds : Prop :=
  ∀ (s : State) (e0 e1 e2 e3 e4 e5 e6 : TgEntry), s.ctl ≠ .halt → Holds7 s e0 e1 e2 e3 e4 e5 e6 →
    exec .emitTelegram s = .next { s with
      sink := s.sink ++ [⟨e0.ss, e6.es, .telegram, .telegram, 0⟩], result := .completed .nothing } ∧
    exec .emitInit s = .next { s with
      sink := s.sink ++ [⟨e0.ss, e0.es, .scsField, .init, 0⟩], result := .completed .nothing } ∧
    exec .emitAddr s = .next { s with
      sink := s.sink ++ [⟨e1.ss, e1.es, .scsField, .addr, 0⟩], result := .completed .nothing } ∧
    exec .emitField2 s = .next { s with
      sink := s.sink ++ [⟨e2.ss, e2.es, .scsField, .field2, 0⟩], result := .completed .nothing } ∧
    exec .emitRequest s = .next { s with
      sink := s.sink ++ [⟨e3.ss, e3.es, .scsField, .request, 0⟩], result := .completed .nothing } ∧
    exec .emitField4 s = .next { s with
      sink := s.sink ++ [⟨e4.ss, e4.es, .scsField, .field4, 0⟩], result := .completed .nothing } ∧
    exec .emitTerm s = .next { s with
      sink := s.sink ++ [⟨e6.ss, e6.es, .scsField, .term, 0⟩], result := .completed .nothing }

/-- R156, R157: of the two crc kinds the one that fits the checksum is emitted; the other is not performed, which is the
model's reading of a bare crc kind (log 15). -/
def Obligations.CrcRecordKinds : Prop :=
  ∀ (s : State) (e0 e1 e2 e3 e4 e5 e6 : TgEntry), s.ctl ≠ .halt → Holds7 s e0 e1 e2 e3 e4 e5 e6 →
    (goodSum e1 e2 e3 e4 e5 = true →
      exec .emitGoodCrc s = .next { s with
        sink := s.sink ++ [⟨e5.ss, e5.es, .scsField, .goodCrc, 0⟩], result := .completed .nothing } ∧
      exec .emitBadCrc s = .next { s with result := .notPerformed }) ∧
    (goodSum e1 e2 e3 e4 e5 = false →
      exec .emitBadCrc s = .next { s with
        sink := s.sink ++ [⟨e5.ss, e5.es, .scsField, .badCrc, 0⟩], result := .completed .nothing } ∧
      exec .emitGoodCrc s = .next { s with result := .notPerformed })

/-- The telegram, field and crc kinds run whatever the buffers hold: a span that comes from an entry that is not valid is
free (U5, log 5), and nothing is said of it; of the crc kinds one or the other is emitted. -/
def Obligations.BufferRecordKindsRunWithAnyBuffer : Prop :=
  ∀ s : State, s.ctl ≠ .halt →
    (∀ (i : Instr) (c : Category) (l : Label),
      (i, c, l) ∈ [(Instr.emitTelegram, Category.telegram, Label.telegram), (.emitInit, .scsField, .init),
        (.emitAddr, .scsField, .addr), (.emitField2, .scsField, .field2), (.emitRequest, .scsField, .request),
        (.emitField4, .scsField, .field4), (.emitTerm, .scsField, .term)] →
      ∃ ss es n, exec i s = .next { s with
        sink := s.sink ++ [⟨ss, es, c, l, 0⟩], staleReads := n, result := .completed .nothing }) ∧
    ∃ ss es n,
      (exec .emitGoodCrc s = .next { s with
          sink := s.sink ++ [⟨ss, es, .scsField, .goodCrc, 0⟩], staleReads := n, result := .completed .nothing } ∧
        exec .emitBadCrc s = .next { s with staleReads := n, result := .notPerformed }) ∨
      (exec .emitBadCrc s = .next { s with
          sink := s.sink ++ [⟨ss, es, .scsField, .badCrc, 0⟩], staleReads := n, result := .completed .nothing } ∧
        exec .emitGoodCrc s = .next { s with staleReads := n, result := .notPerformed })

/-- R80: the fields of a record word for positions of `w` bits. -/
def Obligations.RecordWordFields : Prop :=
  ∀ (w : Nat) (r : Record), r.ss < 2 ^ w → r.es < 2 ^ w →
    r.word w < 2 ^ (2 * w + 15) ∧ r.word w % 2 ^ 8 = r.data.toNat ∧ r.word w / 2 ^ 8 % 2 ^ 4 = lblCode r.lbl ∧
    r.word w / 2 ^ 12 % 2 ^ 3 = catCode r.cat ∧ r.word w / 2 ^ 15 % 2 ^ w = r.es ∧ r.word w / 2 ^ (w + 15) = r.ss

/-! ### Reset, halt and whole runs -/

/-- R200: RESET gives every register its value, from any state, and withdraws no record. -/
def Obligations.ResetOperationClearsRegisters : Prop :=
  ∀ s : State, exec .reset s = .next { restarted s with result := .completed .nothing }

/-- After EndOfStream no operation executes but POS and RESET (R11, R188, R190; DEDUCED, log 11). -/
def Obligations.HaltHoldsOperations : Prop :=
  ∀ (i : Instr) (s : State), s.ctl = .halt → heldByHalt i = true →
    exec i s = .next { s with result := .notPerformed }

/-- R178, R159: 520 steps of the tick machine read one byte frame: eleven records, one byte appended, and the flush of a
seventh byte in the same run of steps. -/
def Obligations.TickMachineReadsFrameIn520Steps : Prop :=
  ∀ (s : State) (f : List Level) (rest : List PortIn), BlockInv s → s.ctl = .hunt → f.length = 520 →
    f.head? = some false → s.inp = onLine f ++ rest →
    (s.tg.length < 6 →
      core.run 520 s = .next { afterFrame s.pos f s with tg := s.tg ++ [frameEntry s.pos f], inp := rest }) ∧
    (∀ e0 e1 e2 e3 e4 e5, s.tg = [e0, e1, e2, e3, e4, e5] →
      core.run 520 s = .next { afterFrame s.pos f s with
        sink := s.sink ++ frameRecords s.pos f ++ telegramRecords e0 e1 e2 e3 e4 e5 (frameEntry s.pos f), tg := [],
        inp := rest })

/-- R6: the two levels agree: the tick machine over a stream and then Eos ends in the state that LOOP, repeated, ends in
over the same stream. They differ in the model's own record of an operation's outcome only. -/
def Obligations.TickLevelEqualsOperationLevel : Prop :=
  ∀ (s : State) (l : List Level), BlockInv s → s.ctl = .hunt → s.inp = streamThenEos l →
    ∃ t, core.run (l.length + 1) s = .next t ∧ t.inp = [] ∧
      runLoops (l.length + 2) s = .next { t with result := .ended }

/-- R198: a stream that ends `d` ticks into a frame leaves the records of the completed cells, appends nothing and halts;
with all 520 ticks the frame is complete and its byte appended, and flushed with its telegram if it was the seventh. -/
def Obligations.StreamEndInsideFrame : Prop :=
  ∀ (s : State) (f : List Level) (d : Nat), BlockInv s → s.ctl = .hunt → f.length = 520 → f.head? = some false →
    s.inp = streamThenEos (f.take d) →
    (1 ≤ d → d ≤ 519 →
      ∃ t, core.run (d + 1) s = .next t ∧ t.ctl = .halt ∧ t.pos = s.pos + d ∧ t.tg = s.tg ∧
        t.sink = s.sink ++ (frameRecords s.pos f).take (recordsAfter d)) ∧
    (d = 520 → s.tg.length < 6 →
      ∃ t, core.run 521 s = .next t ∧ t.ctl = .halt ∧ t.pos = s.pos + 520 ∧
        t.tg = s.tg ++ [frameEntry s.pos f] ∧ t.sink = s.sink ++ frameRecords s.pos f) ∧
    ∀ e0 e1 e2 e3 e4 e5, d = 520 → s.tg = [e0, e1, e2, e3, e4, e5] →
      ∃ t, core.run 521 s = .next t ∧ t.ctl = .halt ∧ t.pos = s.pos + 520 ∧ t.tg = [] ∧
        t.sink = s.sink ++ frameRecords s.pos f ++ telegramRecords e0 e1 e2 e3 e4 e5 (frameEntry s.pos f)

/-- R206: a line stuck high decodes as nothing. -/
def Obligations.StuckHighLineDecodesNothing : Prop :=
  ∀ (n : Nat) (s : State), BlockInv s → s.ctl = .hunt → s.inp = onLine (highTicks n) →
    core.run n s = .next { s with pos := s.pos + n, inp := [] }

/-- R206: a line stuck low decodes as bytes 00 with stop bit 0, and every 3640 ticks as a telegram with a right checksum. -/
def Obligations.StuckLowLineDecodesZeroTelegrams : Prop :=
  ∀ s : State, BlockInv s → s.ctl = .hunt → s.tg = [] → s.inp = onLine (lowTicks 3640) →
    ∃ t, core.run 3640 s = .next t ∧ t.tg = [] ∧ t.ctl = .hunt ∧ (newRecords s t).length = 85 ∧
      (∀ r ∈ newRecords s t, r.cat = .value → r.data = 0) ∧
      (∀ r ∈ newRecords s t, r.cat = .stopBit → r.data = 0) ∧
      (∃ r ∈ newRecords s t, r.lbl = .goodCrc) ∧ ∀ r ∈ newRecords s t, r.lbl ≠ .badCrc
end

