-- ==== Sys2Proof/Laws/State.lean ====
section
/-! SUPPORT. Laws/State.lean: for each named update of the state, what each field holds after it. -/

namespace Sys2Proof.Machine.State

variable (s : State)

section
@[simp] theorem advance_pos : (s.advance).pos = s.pos + 1 := rfl
@[simp] theorem advance_ctl : (s.advance).ctl = s.ctl := rfl
@[simp] theorem advance_role : (s.advance).role = s.role := rfl
@[simp] theorem advance_skipCnt : (s.advance).skipCnt = s.skipCnt := rfl
@[simp] theorem advance_cellStart : (s.advance).cellStart = s.cellStart := rfl
@[simp] theorem advance_cellVal : (s.advance).cellVal = s.cellVal := rfl
@[simp] theorem advance_bitIdx : (s.advance).bitIdx = s.bitIdx := rfl
@[simp] theorem advance_acc : (s.advance).acc = s.acc := rfl
@[simp] theorem advance_startBitSample : (s.advance).startBitSample = s.startBitSample := rfl
@[simp] theorem advance_byteEnd : (s.advance).byteEnd = s.byteEnd := rfl
@[simp] theorem advance_tg : (s.advance).tg = s.tg := rfl
@[simp] theorem advance_inp : (s.advance).inp = s.inp := rfl
@[simp] theorem advance_sink : (s.advance).sink = s.sink := rfl
@[simp] theorem advance_request : (s.advance).request = s.request := rfl
@[simp] theorem advance_pending : (s.advance).pending = s.pending := rfl
@[simp] theorem advance_result : (s.advance).result = s.result := rfl
@[simp] theorem advance_staleReads : (s.advance).staleReads = s.staleReads := rfl
end

section
variable (c : Ctl)
@[simp] theorem goto_pos : (s.goto c).pos = s.pos := rfl
@[simp] theorem goto_ctl : (s.goto c).ctl = c := rfl
@[simp] theorem goto_role : (s.goto c).role = s.role := rfl
@[simp] theorem goto_skipCnt : (s.goto c).skipCnt = s.skipCnt := rfl
@[simp] theorem goto_cellStart : (s.goto c).cellStart = s.cellStart := rfl
@[simp] theorem goto_cellVal : (s.goto c).cellVal = s.cellVal := rfl
@[simp] theorem goto_bitIdx : (s.goto c).bitIdx = s.bitIdx := rfl
@[simp] theorem goto_acc : (s.goto c).acc = s.acc := rfl
@[simp] theorem goto_startBitSample : (s.goto c).startBitSample = s.startBitSample := rfl
@[simp] theorem goto_byteEnd : (s.goto c).byteEnd = s.byteEnd := rfl
@[simp] theorem goto_tg : (s.goto c).tg = s.tg := rfl
@[simp] theorem goto_inp : (s.goto c).inp = s.inp := rfl
@[simp] theorem goto_sink : (s.goto c).sink = s.sink := rfl
@[simp] theorem goto_request : (s.goto c).request = s.request := rfl
@[simp] theorem goto_pending : (s.goto c).pending = s.pending := rfl
@[simp] theorem goto_result : (s.goto c).result = s.result := rfl
@[simp] theorem goto_staleReads : (s.goto c).staleReads = s.staleReads := rfl
end

section
variable (r : Role)
@[simp] theorem withRole_pos : (s.withRole r).pos = s.pos := rfl
@[simp] theorem withRole_ctl : (s.withRole r).ctl = s.ctl := rfl
@[simp] theorem withRole_role : (s.withRole r).role = r := rfl
@[simp] theorem withRole_skipCnt : (s.withRole r).skipCnt = s.skipCnt := rfl
@[simp] theorem withRole_cellStart : (s.withRole r).cellStart = s.cellStart := rfl
@[simp] theorem withRole_cellVal : (s.withRole r).cellVal = s.cellVal := rfl
@[simp] theorem withRole_bitIdx : (s.withRole r).bitIdx = s.bitIdx := rfl
@[simp] theorem withRole_acc : (s.withRole r).acc = s.acc := rfl
@[simp] theorem withRole_startBitSample : (s.withRole r).startBitSample = s.startBitSample := rfl
@[simp] theorem withRole_byteEnd : (s.withRole r).byteEnd = s.byteEnd := rfl
@[simp] theorem withRole_tg : (s.withRole r).tg = s.tg := rfl
@[simp] theorem withRole_inp : (s.withRole r).inp = s.inp := rfl
@[simp] theorem withRole_sink : (s.withRole r).sink = s.sink := rfl
@[simp] theorem withRole_request : (s.withRole r).request = s.request := rfl
@[simp] theorem withRole_pending : (s.withRole r).pending = s.pending := rfl
@[simp] theorem withRole_result : (s.withRole r).result = s.result := rfl
@[simp] theorem withRole_staleReads : (s.withRole r).staleReads = s.staleReads := rfl
end

section
variable (n : BitVec 6)
@[simp] theorem withSkip_pos : (s.withSkip n).pos = s.pos := rfl
@[simp] theorem withSkip_ctl : (s.withSkip n).ctl = s.ctl := rfl
@[simp] theorem withSkip_role : (s.withSkip n).role = s.role := rfl
@[simp] theorem withSkip_skipCnt : (s.withSkip n).skipCnt = n := rfl
@[simp] theorem withSkip_cellStart : (s.withSkip n).cellStart = s.cellStart := rfl
@[simp] theorem withSkip_cellVal : (s.withSkip n).cellVal = s.cellVal := rfl
@[simp] theorem withSkip_bitIdx : (s.withSkip n).bitIdx = s.bitIdx := rfl
@[simp] theorem withSkip_acc : (s.withSkip n).acc = s.acc := rfl
@[simp] theorem withSkip_startBitSample : (s.withSkip n).startBitSample = s.startBitSample := rfl
@[simp] theorem withSkip_byteEnd : (s.withSkip n).byteEnd = s.byteEnd := rfl
@[simp] theorem withSkip_tg : (s.withSkip n).tg = s.tg := rfl
@[simp] theorem withSkip_inp : (s.withSkip n).inp = s.inp := rfl
@[simp] theorem withSkip_sink : (s.withSkip n).sink = s.sink := rfl
@[simp] theorem withSkip_request : (s.withSkip n).request = s.request := rfl
@[simp] theorem withSkip_pending : (s.withSkip n).pending = s.pending := rfl
@[simp] theorem withSkip_result : (s.withSkip n).result = s.result := rfl
@[simp] theorem withSkip_staleReads : (s.withSkip n).staleReads = s.staleReads := rfl
end

section
variable (v : Level)
@[simp] theorem openCell_pos : (s.openCell v).pos = s.pos := rfl
@[simp] theorem openCell_ctl : (s.openCell v).ctl = s.ctl := rfl
@[simp] theorem openCell_role : (s.openCell v).role = s.role := rfl
@[simp] theorem openCell_skipCnt : (s.openCell v).skipCnt = s.skipCnt := rfl
@[simp] theorem openCell_cellStart : (s.openCell v).cellStart = s.pos := rfl
@[simp] theorem openCell_cellVal : (s.openCell v).cellVal = v := rfl
@[simp] theorem openCell_bitIdx : (s.openCell v).bitIdx = s.bitIdx := rfl
@[simp] theorem openCell_acc : (s.openCell v).acc = s.acc := rfl
@[simp] theorem openCell_startBitSample : (s.openCell v).startBitSample = s.startBitSample := rfl
@[simp] theorem openCell_byteEnd : (s.openCell v).byteEnd = s.byteEnd := rfl
@[simp] theorem openCell_tg : (s.openCell v).tg = s.tg := rfl
@[simp] theorem openCell_inp : (s.openCell v).inp = s.inp := rfl
@[simp] theorem openCell_sink : (s.openCell v).sink = s.sink := rfl
@[simp] theorem openCell_request : (s.openCell v).request = s.request := rfl
@[simp] theorem openCell_pending : (s.openCell v).pending = s.pending := rfl
@[simp] theorem openCell_result : (s.openCell v).result = s.result := rfl
@[simp] theorem openCell_staleReads : (s.openCell v).staleReads = s.staleReads := rfl
end

section
@[simp] theorem beginByte_pos : (s.beginByte).pos = s.pos := rfl
@[simp] theorem beginByte_ctl : (s.beginByte).ctl = s.ctl := rfl
@[simp] theorem beginByte_role : (s.beginByte).role = s.role := rfl
@[simp] theorem beginByte_skipCnt : (s.beginByte).skipCnt = s.skipCnt := rfl
@[simp] theorem beginByte_cellStart : (s.beginByte).cellStart = s.cellStart := rfl
@[simp] theorem beginByte_cellVal : (s.beginByte).cellVal = s.cellVal := rfl
@[simp] theorem beginByte_bitIdx : (s.beginByte).bitIdx = 0 := rfl
@[simp] theorem beginByte_acc : (s.beginByte).acc = 0 := rfl
@[simp] theorem beginByte_startBitSample : (s.beginByte).startBitSample = s.pos := rfl
@[simp] theorem beginByte_byteEnd : (s.beginByte).byteEnd = s.byteEnd := rfl
@[simp] theorem beginByte_tg : (s.beginByte).tg = s.tg := rfl
@[simp] theorem beginByte_inp : (s.beginByte).inp = s.inp := rfl
@[simp] theorem beginByte_sink : (s.beginByte).sink = s.sink := rfl
@[simp] theorem beginByte_request : (s.beginByte).request = s.request := rfl
@[simp] theorem beginByte_pending : (s.beginByte).pending = s.pending := rfl
@[simp] theorem beginByte_result : (s.beginByte).result = s.result := rfl
@[simp] theorem beginByte_staleReads : (s.beginByte).staleReads = s.staleReads := rfl
end

section
@[simp] theorem mergeBit_pos : (s.mergeBit).pos = s.pos := rfl
@[simp] theorem mergeBit_ctl : (s.mergeBit).ctl = s.ctl := rfl
@[simp] theorem mergeBit_role : (s.mergeBit).role = s.role := rfl
@[simp] theorem mergeBit_skipCnt : (s.mergeBit).skipCnt = s.skipCnt := rfl
@[simp] theorem mergeBit_cellStart : (s.mergeBit).cellStart = s.cellStart := rfl
@[simp] theorem mergeBit_cellVal : (s.mergeBit).cellVal = s.cellVal := rfl
@[simp] theorem mergeBit_bitIdx : (s.mergeBit).bitIdx = s.bitIdx + 1 := rfl
@[simp] theorem mergeBit_acc : (s.mergeBit).acc = s.acc ||| (bitByte s.cellVal <<< s.bitIdx.toNat) := rfl
@[simp] theorem mergeBit_startBitSample : (s.mergeBit).startBitSample = s.startBitSample := rfl
@[simp] theorem mergeBit_byteEnd : (s.mergeBit).byteEnd = s.byteEnd := rfl
@[simp] theorem mergeBit_tg : (s.mergeBit).tg = s.tg := rfl
@[simp] theorem mergeBit_inp : (s.mergeBit).inp = s.inp := rfl
@[simp] theorem mergeBit_sink : (s.mergeBit).sink = s.sink := rfl
@[simp] theorem mergeBit_request : (s.mergeBit).request = s.request := rfl
@[simp] theorem mergeBit_pending : (s.mergeBit).pending = s.pending := rfl
@[simp] theorem mergeBit_result : (s.mergeBit).result = s.result := rfl
@[simp] theorem mergeBit_staleReads : (s.mergeBit).staleReads = s.staleReads := rfl
end

section
@[simp] theorem endByte_pos : (s.endByte).pos = s.pos := rfl
@[simp] theorem endByte_ctl : (s.endByte).ctl = s.ctl := rfl
@[simp] theorem endByte_role : (s.endByte).role = s.role := rfl
@[simp] theorem endByte_skipCnt : (s.endByte).skipCnt = s.skipCnt := rfl
@[simp] theorem endByte_cellStart : (s.endByte).cellStart = s.cellStart := rfl
@[simp] theorem endByte_cellVal : (s.endByte).cellVal = s.cellVal := rfl
@[simp] theorem endByte_bitIdx : (s.endByte).bitIdx = s.bitIdx := rfl
@[simp] theorem endByte_acc : (s.endByte).acc = s.acc := rfl
@[simp] theorem endByte_startBitSample : (s.endByte).startBitSample = s.startBitSample := rfl
@[simp] theorem endByte_byteEnd : (s.endByte).byteEnd = s.pos := rfl
@[simp] theorem endByte_tg : (s.endByte).tg = s.tg := rfl
@[simp] theorem endByte_inp : (s.endByte).inp = s.inp := rfl
@[simp] theorem endByte_sink : (s.endByte).sink = s.sink := rfl
@[simp] theorem endByte_request : (s.endByte).request = s.request := rfl
@[simp] theorem endByte_pending : (s.endByte).pending = s.pending := rfl
@[simp] theorem endByte_result : (s.endByte).result = s.result := rfl
@[simp] theorem endByte_staleReads : (s.endByte).staleReads = s.staleReads := rfl
end

section
variable (r : Record)
@[simp] theorem emit_pos : (s.emit r).pos = s.pos := rfl
@[simp] theorem emit_ctl : (s.emit r).ctl = s.ctl := rfl
@[simp] theorem emit_role : (s.emit r).role = s.role := rfl
@[simp] theorem emit_skipCnt : (s.emit r).skipCnt = s.skipCnt := rfl
@[simp] theorem emit_cellStart : (s.emit r).cellStart = s.cellStart := rfl
@[simp] theorem emit_cellVal : (s.emit r).cellVal = s.cellVal := rfl
@[simp] theorem emit_bitIdx : (s.emit r).bitIdx = s.bitIdx := rfl
@[simp] theorem emit_acc : (s.emit r).acc = s.acc := rfl
@[simp] theorem emit_startBitSample : (s.emit r).startBitSample = s.startBitSample := rfl
@[simp] theorem emit_byteEnd : (s.emit r).byteEnd = s.byteEnd := rfl
@[simp] theorem emit_tg : (s.emit r).tg = s.tg := rfl
@[simp] theorem emit_inp : (s.emit r).inp = s.inp := rfl
@[simp] theorem emit_sink : (s.emit r).sink = s.sink ++ [r] := rfl
@[simp] theorem emit_request : (s.emit r).request = s.request := rfl
@[simp] theorem emit_pending : (s.emit r).pending = s.pending := rfl
@[simp] theorem emit_result : (s.emit r).result = s.result := rfl
@[simp] theorem emit_staleReads : (s.emit r).staleReads = s.staleReads := rfl
end

section
variable (e : TgEntry)
@[simp] theorem store_pos : (s.store e).pos = s.pos := rfl
@[simp] theorem store_ctl : (s.store e).ctl = s.ctl := rfl
@[simp] theorem store_role : (s.store e).role = s.role := rfl
@[simp] theorem store_skipCnt : (s.store e).skipCnt = s.skipCnt := rfl
@[simp] theorem store_cellStart : (s.store e).cellStart = s.cellStart := rfl
@[simp] theorem store_cellVal : (s.store e).cellVal = s.cellVal := rfl
@[simp] theorem store_bitIdx : (s.store e).bitIdx = s.bitIdx := rfl
@[simp] theorem store_acc : (s.store e).acc = s.acc := rfl
@[simp] theorem store_startBitSample : (s.store e).startBitSample = s.startBitSample := rfl
@[simp] theorem store_byteEnd : (s.store e).byteEnd = s.byteEnd := rfl
@[simp] theorem store_tg : (s.store e).tg = s.tg ++ [e] := rfl
@[simp] theorem store_inp : (s.store e).inp = s.inp := rfl
@[simp] theorem store_sink : (s.store e).sink = s.sink := rfl
@[simp] theorem store_request : (s.store e).request = s.request := rfl
@[simp] theorem store_pending : (s.store e).pending = s.pending := rfl
@[simp] theorem store_result : (s.store e).result = s.result := rfl
@[simp] theorem store_staleReads : (s.store e).staleReads = s.staleReads := rfl
end

section
@[simp] theorem clearTelegram_pos : (s.clearTelegram).pos = s.pos := rfl
@[simp] theorem clearTelegram_ctl : (s.clearTelegram).ctl = s.ctl := rfl
@[simp] theorem clearTelegram_role : (s.clearTelegram).role = s.role := rfl
@[simp] theorem clearTelegram_skipCnt : (s.clearTelegram).skipCnt = s.skipCnt := rfl
@[simp] theorem clearTelegram_cellStart : (s.clearTelegram).cellStart = s.cellStart := rfl
@[simp] theorem clearTelegram_cellVal : (s.clearTelegram).cellVal = s.cellVal := rfl
@[simp] theorem clearTelegram_bitIdx : (s.clearTelegram).bitIdx = s.bitIdx := rfl
@[simp] theorem clearTelegram_acc : (s.clearTelegram).acc = s.acc := rfl
@[simp] theorem clearTelegram_startBitSample : (s.clearTelegram).startBitSample = s.startBitSample := rfl
@[simp] theorem clearTelegram_byteEnd : (s.clearTelegram).byteEnd = s.byteEnd := rfl
@[simp] theorem clearTelegram_tg : (s.clearTelegram).tg = [] := rfl
@[simp] theorem clearTelegram_inp : (s.clearTelegram).inp = s.inp := rfl
@[simp] theorem clearTelegram_sink : (s.clearTelegram).sink = s.sink := rfl
@[simp] theorem clearTelegram_request : (s.clearTelegram).request = s.request := rfl
@[simp] theorem clearTelegram_pending : (s.clearTelegram).pending = s.pending := rfl
@[simp] theorem clearTelegram_result : (s.clearTelegram).result = s.result := rfl
@[simp] theorem clearTelegram_staleReads : (s.clearTelegram).staleReads = s.staleReads := rfl
end

section
variable (q : List PortIn)
@[simp] theorem withInp_pos : (s.withInp q).pos = s.pos := rfl
@[simp] theorem withInp_ctl : (s.withInp q).ctl = s.ctl := rfl
@[simp] theorem withInp_role : (s.withInp q).role = s.role := rfl
@[simp] theorem withInp_skipCnt : (s.withInp q).skipCnt = s.skipCnt := rfl
@[simp] theorem withInp_cellStart : (s.withInp q).cellStart = s.cellStart := rfl
@[simp] theorem withInp_cellVal : (s.withInp q).cellVal = s.cellVal := rfl
@[simp] theorem withInp_bitIdx : (s.withInp q).bitIdx = s.bitIdx := rfl
@[simp] theorem withInp_acc : (s.withInp q).acc = s.acc := rfl
@[simp] theorem withInp_startBitSample : (s.withInp q).startBitSample = s.startBitSample := rfl
@[simp] theorem withInp_byteEnd : (s.withInp q).byteEnd = s.byteEnd := rfl
@[simp] theorem withInp_tg : (s.withInp q).tg = s.tg := rfl
@[simp] theorem withInp_inp : (s.withInp q).inp = q := rfl
@[simp] theorem withInp_sink : (s.withInp q).sink = s.sink := rfl
@[simp] theorem withInp_request : (s.withInp q).request = s.request := rfl
@[simp] theorem withInp_pending : (s.withInp q).pending = s.pending := rfl
@[simp] theorem withInp_result : (s.withInp q).result = s.result := rfl
@[simp] theorem withInp_staleReads : (s.withInp q).staleReads = s.staleReads := rfl
end

section
variable (w : Option InstrWord)
@[simp] theorem withRequest_pos : (s.withRequest w).pos = s.pos := rfl
@[simp] theorem withRequest_ctl : (s.withRequest w).ctl = s.ctl := rfl
@[simp] theorem withRequest_role : (s.withRequest w).role = s.role := rfl
@[simp] theorem withRequest_skipCnt : (s.withRequest w).skipCnt = s.skipCnt := rfl
@[simp] theorem withRequest_cellStart : (s.withRequest w).cellStart = s.cellStart := rfl
@[simp] theorem withRequest_cellVal : (s.withRequest w).cellVal = s.cellVal := rfl
@[simp] theorem withRequest_bitIdx : (s.withRequest w).bitIdx = s.bitIdx := rfl
@[simp] theorem withRequest_acc : (s.withRequest w).acc = s.acc := rfl
@[simp] theorem withRequest_startBitSample : (s.withRequest w).startBitSample = s.startBitSample := rfl
@[simp] theorem withRequest_byteEnd : (s.withRequest w).byteEnd = s.byteEnd := rfl
@[simp] theorem withRequest_tg : (s.withRequest w).tg = s.tg := rfl
@[simp] theorem withRequest_inp : (s.withRequest w).inp = s.inp := rfl
@[simp] theorem withRequest_sink : (s.withRequest w).sink = s.sink := rfl
@[simp] theorem withRequest_request : (s.withRequest w).request = w := rfl
@[simp] theorem withRequest_pending : (s.withRequest w).pending = s.pending := rfl
@[simp] theorem withRequest_result : (s.withRequest w).result = s.result := rfl
@[simp] theorem withRequest_staleReads : (s.withRequest w).staleReads = s.staleReads := rfl
end

section
variable (p : Option Pending)
@[simp] theorem withPending_pos : (s.withPending p).pos = s.pos := rfl
@[simp] theorem withPending_ctl : (s.withPending p).ctl = s.ctl := rfl
@[simp] theorem withPending_role : (s.withPending p).role = s.role := rfl
@[simp] theorem withPending_skipCnt : (s.withPending p).skipCnt = s.skipCnt := rfl
@[simp] theorem withPending_cellStart : (s.withPending p).cellStart = s.cellStart := rfl
@[simp] theorem withPending_cellVal : (s.withPending p).cellVal = s.cellVal := rfl
@[simp] theorem withPending_bitIdx : (s.withPending p).bitIdx = s.bitIdx := rfl
@[simp] theorem withPending_acc : (s.withPending p).acc = s.acc := rfl
@[simp] theorem withPending_startBitSample : (s.withPending p).startBitSample = s.startBitSample := rfl
@[simp] theorem withPending_byteEnd : (s.withPending p).byteEnd = s.byteEnd := rfl
@[simp] theorem withPending_tg : (s.withPending p).tg = s.tg := rfl
@[simp] theorem withPending_inp : (s.withPending p).inp = s.inp := rfl
@[simp] theorem withPending_sink : (s.withPending p).sink = s.sink := rfl
@[simp] theorem withPending_request : (s.withPending p).request = s.request := rfl
@[simp] theorem withPending_pending : (s.withPending p).pending = p := rfl
@[simp] theorem withPending_result : (s.withPending p).result = s.result := rfl
@[simp] theorem withPending_staleReads : (s.withPending p).staleReads = s.staleReads := rfl
end

section
variable (r : Result)
@[simp] theorem withResult_pos : (s.withResult r).pos = s.pos := rfl
@[simp] theorem withResult_ctl : (s.withResult r).ctl = s.ctl := rfl
@[simp] theorem withResult_role : (s.withResult r).role = s.role := rfl
@[simp] theorem withResult_skipCnt : (s.withResult r).skipCnt = s.skipCnt := rfl
@[simp] theorem withResult_cellStart : (s.withResult r).cellStart = s.cellStart := rfl
@[simp] theorem withResult_cellVal : (s.withResult r).cellVal = s.cellVal := rfl
@[simp] theorem withResult_bitIdx : (s.withResult r).bitIdx = s.bitIdx := rfl
@[simp] theorem withResult_acc : (s.withResult r).acc = s.acc := rfl
@[simp] theorem withResult_startBitSample : (s.withResult r).startBitSample = s.startBitSample := rfl
@[simp] theorem withResult_byteEnd : (s.withResult r).byteEnd = s.byteEnd := rfl
@[simp] theorem withResult_tg : (s.withResult r).tg = s.tg := rfl
@[simp] theorem withResult_inp : (s.withResult r).inp = s.inp := rfl
@[simp] theorem withResult_sink : (s.withResult r).sink = s.sink := rfl
@[simp] theorem withResult_request : (s.withResult r).request = s.request := rfl
@[simp] theorem withResult_pending : (s.withResult r).pending = s.pending := rfl
@[simp] theorem withResult_result : (s.withResult r).result = r := rfl
@[simp] theorem withResult_staleReads : (s.withResult r).staleReads = s.staleReads := rfl
end

section
@[simp] theorem countStale_pos : (s.countStale).pos = s.pos := rfl
@[simp] theorem countStale_ctl : (s.countStale).ctl = s.ctl := rfl
@[simp] theorem countStale_role : (s.countStale).role = s.role := rfl
@[simp] theorem countStale_skipCnt : (s.countStale).skipCnt = s.skipCnt := rfl
@[simp] theorem countStale_cellStart : (s.countStale).cellStart = s.cellStart := rfl
@[simp] theorem countStale_cellVal : (s.countStale).cellVal = s.cellVal := rfl
@[simp] theorem countStale_bitIdx : (s.countStale).bitIdx = s.bitIdx := rfl
@[simp] theorem countStale_acc : (s.countStale).acc = s.acc := rfl
@[simp] theorem countStale_startBitSample : (s.countStale).startBitSample = s.startBitSample := rfl
@[simp] theorem countStale_byteEnd : (s.countStale).byteEnd = s.byteEnd := rfl
@[simp] theorem countStale_tg : (s.countStale).tg = s.tg := rfl
@[simp] theorem countStale_inp : (s.countStale).inp = s.inp := rfl
@[simp] theorem countStale_sink : (s.countStale).sink = s.sink := rfl
@[simp] theorem countStale_request : (s.countStale).request = s.request := rfl
@[simp] theorem countStale_pending : (s.countStale).pending = s.pending := rfl
@[simp] theorem countStale_result : (s.countStale).result = s.result := rfl
@[simp] theorem countStale_staleReads : (s.countStale).staleReads = s.staleReads + 1 := rfl
end

section
@[simp] theorem raiseEndOfStream_pos : (s.raiseEndOfStream).pos = s.pos := rfl
@[simp] theorem raiseEndOfStream_ctl : (s.raiseEndOfStream).ctl = .halt := rfl
@[simp] theorem raiseEndOfStream_role : (s.raiseEndOfStream).role = s.role := rfl
@[simp] theorem raiseEndOfStream_skipCnt : (s.raiseEndOfStream).skipCnt = s.skipCnt := rfl
@[simp] theorem raiseEndOfStream_cellStart : (s.raiseEndOfStream).cellStart = s.cellStart := rfl
@[simp] theorem raiseEndOfStream_cellVal : (s.raiseEndOfStream).cellVal = s.cellVal := rfl
@[simp] theorem raiseEndOfStream_bitIdx : (s.raiseEndOfStream).bitIdx = s.bitIdx := rfl
@[simp] theorem raiseEndOfStream_acc : (s.raiseEndOfStream).acc = s.acc := rfl
@[simp] theorem raiseEndOfStream_startBitSample : (s.raiseEndOfStream).startBitSample = s.startBitSample := rfl
@[simp] theorem raiseEndOfStream_byteEnd : (s.raiseEndOfStream).byteEnd = s.byteEnd := rfl
@[simp] theorem raiseEndOfStream_tg : (s.raiseEndOfStream).tg = s.tg := rfl
@[simp] theorem raiseEndOfStream_inp : (s.raiseEndOfStream).inp = s.inp := rfl
@[simp] theorem raiseEndOfStream_sink : (s.raiseEndOfStream).sink = s.sink := rfl
@[simp] theorem raiseEndOfStream_request : (s.raiseEndOfStream).request = s.request := rfl
@[simp] theorem raiseEndOfStream_pending : (s.raiseEndOfStream).pending = none := rfl
@[simp] theorem raiseEndOfStream_result : (s.raiseEndOfStream).result = s.result := rfl
@[simp] theorem raiseEndOfStream_staleReads : (s.raiseEndOfStream).staleReads = s.staleReads := rfl
end

section
@[simp] theorem resetBlock_pos : (s.resetBlock).pos = 0 := rfl
@[simp] theorem resetBlock_ctl : (s.resetBlock).ctl = .hunt := rfl
@[simp] theorem resetBlock_role : (s.resetBlock).role = .start := rfl
@[simp] theorem resetBlock_skipCnt : (s.resetBlock).skipCnt = 0 := rfl
@[simp] theorem resetBlock_cellStart : (s.resetBlock).cellStart = 0 := rfl
@[simp] theorem resetBlock_cellVal : (s.resetBlock).cellVal = false := rfl
@[simp] theorem resetBlock_bitIdx : (s.resetBlock).bitIdx = 0 := rfl
@[simp] theorem resetBlock_acc : (s.resetBlock).acc = 0 := rfl
@[simp] theorem resetBlock_startBitSample : (s.resetBlock).startBitSample = 0 := rfl
@[simp] theorem resetBlock_byteEnd : (s.resetBlock).byteEnd = 0 := rfl
@[simp] theorem resetBlock_tg : (s.resetBlock).tg = [] := rfl
@[simp] theorem resetBlock_inp : (s.resetBlock).inp = s.inp := rfl
@[simp] theorem resetBlock_sink : (s.resetBlock).sink = s.sink := rfl
@[simp] theorem resetBlock_request : (s.resetBlock).request = s.request := rfl
@[simp] theorem resetBlock_pending : (s.resetBlock).pending = none := rfl
@[simp] theorem resetBlock_result : (s.resetBlock).result = s.result := rfl
@[simp] theorem resetBlock_staleReads : (s.resetBlock).staleReads = s.staleReads := rfl
end

/-- The reset of the block (R200) makes of any state the reset state with that state's environment. -/
theorem resetBlock_eq : s.resetBlock =
    { reset with inp := s.inp, sink := s.sink, request := s.request, result := s.result, staleReads := s.staleReads } := rfl

end Sys2Proof.Machine.State
end

