-- ==== Sys2Proof/Laws/Ops.lean ====
section
/-! SUPPORT. Laws/Ops.lean: what the shared operations of Machine/Ops.lean can do, said once. -/

namespace Sys2Proof.Machine

theorem operation_running {s : State} {f : State → Host.Outcome State Fault Refusal} (h : s.ctl ≠ .halt) :
    operation s f = f s := by simp [operation, State.halted, h]

theorem operation_halted {s : State} {f : State → Host.Outcome State Fault Refusal} (h : s.ctl = .halt) :
    operation s f = .next (s.withResult .notPerformed) := by simp [operation, State.halted, h]

/-- APPEND stores the entry behind the others, and does so exactly if fewer than seven are held. -/
theorem appendEntry_eq_ok {e : TgEntry} {s t : State} :
    appendEntry e s = .ok t ↔ s.tg.length < 7 ∧ t = s.store e := by
  unfold appendEntry State.tgCount Config.telegramLen
  split <;> simp_all [eq_comm]

theorem appendEntry_full {e : TgEntry} {s : State} (h : 7 ≤ s.tg.length) : appendEntry e s = .error .bufferFull := by
  simp [appendEntry, State.tgCount, Config.telegramLen, Nat.not_lt.mpr h]

/-- A step that stores a byte goes on exactly if there was room. -/
theorem storedNext_eq_next {r : Except Fault State} {f : State → State} {t : State} (h : storedNext r f = .next t) :
    ∃ s, r = .ok s ∧ t = f s := by
  cases r with
  | ok s => exact ⟨s, rfl, by simpa [storedNext, eq_comm] using h⟩
  | error e => simp [storedNext] at h

theorem foldl_emit (rs : List Record) (s : State) : rs.foldl State.emit s = { s with sink := s.sink ++ rs } := by
  induction rs generalizing s with
  | nil => simp
  | cons r rs ih => simp [ih, State.emit]

/-- FLUSH appends its eight records and empties the buffers, nothing else. -/
theorem flushTelegram_eq (s : State) : flushTelegram s = { s with sink := s.sink ++ flushRecords s, tg := [] } := by
  simp [flushTelegram, foldl_emit, State.clearTelegram]

@[simp] theorem flushRecords_length (s : State) : (flushRecords s).length = 8 := rfl

theorem flushIfPending_of_ne {s : State} (h : s.tg.length ≠ 7) : flushIfPending s = s := by
  simp [flushIfPending, State.flushPending, State.tgCount, Config.telegramLen, h]

theorem flushIfPending_of_eq {s : State} (h : s.tg.length = 7) : flushIfPending s = flushTelegram s := by
  simp [flushIfPending, State.flushPending, State.tgCount, Config.telegramLen, h]

/-- A valid entry is the one the list holds; no free value enters. -/
theorem entry_valid {s : State} {k : Nat} {e : TgEntry} (h : s.tg[k]? = some e) : s.entry k = e := by
  simp [State.entry, h]

theorem appendEntry_bufferWf {e : TgEntry} {s t : State} (h : appendEntry e s = .ok t) : bufferWf t.tg = true := by
  obtain ⟨h, rfl⟩ := appendEntry_eq_ok.mp h
  simp [bufferWf, Config.telegramLen]
  omega

theorem flushTelegram_bufferWf (s : State) : bufferWf (flushTelegram s).tg = true := by
  simp [flushTelegram_eq, bufferWf]

theorem flushIfPending_bufferWf {s : State} (h : bufferWf s.tg = true) : bufferWf (flushIfPending s).tg = true := by
  unfold flushIfPending
  split
  · exact flushTelegram_bufferWf s
  · exact h

/-- R115: the end of a cell emits its one record and names what follows; no other field changes. -/
theorem endCell_eq (r : Role) (v : Level) (s : State) :
    endCell r v s = { s with
      sink := s.sink ++ [⟨s.cellStart, s.pos, roleCategory r, .bitVal, bitByte v⟩], role := (cellSuccessor r).1,
      ctl := (cellSuccessor r).2 } := rfl

/-- R120 step 4: the end of the eighth data bit. -/
theorem endData_eq (s : State) :
    endData s = { s with
      byteEnd := s.pos, role := .stop, sink := s.sink ++ [⟨s.startBitSample, s.pos, .value, .byteHex, s.acc⟩] } := rfl

theorem resetBlock_bufferWf (s : State) : bufferWf s.resetBlock.tg = true := rfl

theorem reset_bufferWf : bufferWf State.reset.tg = true := rfl

end Sys2Proof.Machine
end

