-- ==== Sys2Proof/Laws/Cursor.lean ====
section
/-! SUPPORT. Laws/Cursor.lean: what the cursor operations can do, by outcome, said once. -/

namespace Sys2Proof.Machine

@[simp] theorem symbol_ofLevel (b : Level) : (PortIn.ofLevel b).symbol = .sample b := by cases b <;> rfl
@[simp] theorem symbol_quiet : PortIn.quiet.symbol = .idle := rfl
@[simp] theorem symbol_endOfStream : PortIn.endOfStream.symbol = .eos := rfl
@[simp] theorem symbol_reset : PortIn.reset.symbol = .reset := rfl

/-- R160: a Sample symbol carries the level of the pin. -/
theorem symbol_sample_pin {p : PortIn} {b : Level} (h : p.symbol = .sample b) : p.pin = b := by
  unfold PortIn.symbol at h
  split_ifs at h
  exact Symbol.sample.inj h

/-- WAITLVL, whatever its outcome: it writes `pos` and takes input; where it is done the sample with the level is the
first of the input; suspended it waits on; at the end of the stream the block halts; a reset leaves the reset registers. -/
theorem waitFrom_outcomes (l : Level) (q : List PortIn) (s : State) :
    match waitFrom l q s with
    | .done t => s.pos ≤ t.pos ∧ t = { s with pos := t.pos, inp := t.inp } ∧ ∃ x r, t.inp = x :: r ∧ x.symbol = .sample l
    | .suspended b t => b = .wait l ∧ s.pos ≤ t.pos ∧ t = { s with pos := t.pos, inp := [] }
    | .ended t => s.pos ≤ t.pos ∧ t = { s with pos := t.pos, ctl := .halt, inp := t.inp, pending := none }
    | .restarted t => t = (s.withInp t.inp).resetBlock
    | .stuck _ => False := by
  induction q generalizing s with
  | nil => exact ⟨rfl, le_rfl, rfl⟩
  | cons x q ih =>
    simp only [waitFrom]
    cases hx : x.symbol with
    | reset => rfl
    | eos => exact ⟨le_rfl, rfl⟩
    | idle => exact ih s
    | sample b =>
      dsimp only
      split_ifs with hb
      · exact ⟨le_rfl, rfl, x, q, rfl, hb ▸ hx⟩
      · have h := ih s.advance
        revert h
        cases waitFrom l q s.advance with
        | done t => exact fun ⟨h₁, h⟩ => ⟨Nat.le_of_succ_le h₁, h⟩
        | suspended b t => exact fun ⟨h₀, h₁, h⟩ => ⟨h₀, Nat.le_of_succ_le h₁, h⟩
        | ended t => exact fun ⟨h₁, h⟩ => ⟨Nat.le_of_succ_le h₁, h⟩
        | restarted t => exact id
        | stuck f => exact id

/-- SAMPLE, whatever its outcome: it writes no register unless the stream has ended or the block is reset. -/
theorem sampleFrom_outcomes (q : List PortIn) (s : State) :
    match sampleFrom q s with
    | .done t => t = { s with inp := t.inp } ∧ ∃ x r b, t.inp = x :: r ∧ x.symbol = .sample b
    | .suspended b t => b = .sample ∧ t = { s with inp := [] }
    | .ended t => t = { s with ctl := .halt, inp := t.inp, pending := none }
    | .restarted t => t = (s.withInp t.inp).resetBlock
    | .stuck _ => False := by
  induction q generalizing s with
  | nil => exact ⟨rfl, rfl⟩
  | cons x q ih =>
    simp only [sampleFrom]
    cases hx : x.symbol with
    | reset => rfl
    | eos => rfl
    | idle => exact ih s
    | sample b => exact ⟨rfl, x, q, b, rfl, hx⟩

/-- SKIP, whatever its outcome: the ticks consumed and the ticks owed add up to `n`. -/
theorem skipFrom_outcomes (q : List PortIn) (n : Nat) (s : State) :
    match skipFrom q n s with
    | .done t => t = { s with pos := s.pos + n, skipCnt := 0, inp := t.inp }
    | .suspended b t =>
      ∃ k, k < n ∧ b = .skip (n - k) ∧ t = { s with pos := s.pos + k, skipCnt := BitVec.ofNat 6 (n - k), inp := [] }
    | .ended t =>
      ∃ k, k < n ∧ t = { s with
        pos := s.pos + k, skipCnt := BitVec.ofNat 6 (n - k), ctl := .halt, inp := t.inp, pending := none }
    | .restarted t => t = (s.withInp t.inp).resetBlock
    | .stuck _ => False := by
  induction q generalizing n s with
  | nil =>
    cases n with
    | zero => rfl
    | succ n => exact ⟨0, Nat.succ_pos n, rfl, rfl⟩
  | cons x q ih =>
    cases n with
    | zero => rfl
    | succ n =>
      simp only [skipFrom]
      cases x.symbol with
      | reset => rfl
      | eos => exact ⟨0, Nat.succ_pos n, rfl⟩
      | idle => exact ih (n + 1) s
      | sample b =>
        have h := ih n s.advance
        revert h
        cases skipFrom q n s.advance with
        | done t => simp [State.advance, Nat.add_assoc, Nat.add_comm 1 n]
        | suspended b t =>
          rintro ⟨k, hk, hb, h⟩
          exact ⟨k + 1, by omega, by rwa [Nat.add_sub_add_right],
            by rw [Nat.add_sub_add_right]; simpa [State.advance, Nat.add_assoc, Nat.add_comm 1] using h⟩
        | ended t =>
          rintro ⟨k, hk, h⟩
          exact ⟨k + 1, by omega, by rw [Nat.add_sub_add_right]; simpa [State.advance, Nat.add_assoc, Nat.add_comm 1] using h⟩
        | restarted t => exact id
        | stuck f => exact id

end Sys2Proof.Machine
end

