-- ==== Sys2Proof/Laws/Sequence.lean ====
section
/-! SUPPORT. Laws/Sequence.lean: what a sequence of actions can do, said once: how it is put together from its parts, and the
four ways in which it answers a next state (R11, R12, R104). -/

namespace Sys2Proof.Machine

/-- The state after all of the actions, if each of them is done. -/
def performAll : List Action → State → Option State
  | [], s => some s
  | a :: k, s =>
    match perform a s with
    | .done t => performAll k t
    | _ => none

theorem performAll_cons_done {a : Action} {s t : State} (k : List Action) (h : perform a s = .done t) :
    performAll (a :: k) s = performAll k t := by simp [performAll, h]

theorem runActions_cons_done {a : Action} {s t : State} (r : Returns) (k : List Action) (h : perform a s = .done t) :
    runActions r (a :: k) s = runActions r k t := by simp [runActions, h]

theorem runActions_cons_suspended {a b : Action} {s t : State} (r : Returns) (k : List Action)
    (h : perform a s = .suspended b t) :
    runActions r (a :: k) s = .next { t with pending := some ⟨b :: k, r⟩, result := .suspended } := by
  simp [runActions, h, State.withPending, State.withResult]

theorem runActions_cons_ended {a : Action} {s t : State} (r : Returns) (k : List Action) (h : perform a s = .ended t) :
    runActions r (a :: k) s = .next { t with result := .ended } := by simp [runActions, h, State.withResult]

theorem runActions_cons_restarted {a : Action} {s t : State} (r : Returns) (k : List Action)
    (h : perform a s = .restarted t) : runActions r (a :: k) s = .next { t with result := .restarted } := by
  simp [runActions, h, State.withResult]

@[simp] theorem runActions_nil (r : Returns) (s : State) :
    runActions r [] s = .next { s with pending := none, result := .completed (returned r s) } := by cases r <;> rfl

theorem performAll_append {k₁ k₂ : List Action} {s t : State} (h : performAll k₁ s = some t) :
    performAll (k₁ ++ k₂) s = performAll k₂ t := by
  induction k₁ generalizing s with
  | nil => simpa [performAll] using congrArg (performAll k₂) (Option.some.inj h)
  | cons a k₁ ih =>
    cases ha : perform a s with
    | done u =>
      rw [performAll_cons_done k₁ ha] at h
      rw [List.cons_append, performAll_cons_done _ ha, ih h]
    | _ => simp [performAll, ha] at h

/-- R11 `call`: where the actions of an operation are all done, its caller goes on from the state they leave. -/
theorem runActions_append {r : Returns} {k₁ k₂ : List Action} {s t : State} (h : performAll k₁ s = some t) :
    runActions r (k₁ ++ k₂) s = runActions r k₂ t := by
  induction k₁ generalizing s with
  | nil => simpa [performAll] using congrArg (runActions r k₂) (Option.some.inj h)
  | cons a k₁ ih =>
    cases ha : perform a s with
    | done u =>
      rw [performAll_cons_done k₁ ha] at h
      rw [List.cons_append, runActions_cons_done r _ ha, ih h]
    | _ => simp [performAll, ha] at h

/-- An operation all of whose actions are done completes. -/
theorem runActions_of_performAll {r : Returns} {k : List Action} {s t : State} (h : performAll k s = some t) :
    runActions r k s = .next { t with pending := none, result := .completed (returned r t) } := by
  simpa using runActions_append (r := r) (k₂ := []) h

/-- The actions `k` have been done from `s` as far as `a`, which is performed in `u`; `k'` is what follows it. -/
def Reaches (k : List Action) (s : State) (a : Action) (k' : List Action) (u : State) : Prop :=
  ∃ k₁, k = k₁ ++ a :: k' ∧ performAll k₁ s = some u

theorem Reaches.cons {k k' : List Action} {a b : Action} {s t u : State} (hb : perform b s = .done t)
    (h : Reaches k t a k' u) : Reaches (b :: k) s a k' u := by
  obtain ⟨k₁, rfl, h⟩ := h
  exact ⟨b :: k₁, rfl, by rw [performAll_cons_done k₁ hb, h]⟩

/-- R12: an operation that answers a next state has completed, or is suspended at one of its actions with the rest kept,
or has ended there, or has been cut short there by a reset. -/
theorem runActions_eq_next {r : Returns} {k : List Action} {s t : State} (h : runActions r k s = .next t) :
    (∃ u, performAll k s = some u ∧ t = { u with pending := none, result := .completed (returned r u) }) ∨
      ∃ a k' u, Reaches k s a k' u ∧
        ((∃ b v, perform a u = .suspended b v ∧ t = { v with pending := some ⟨b :: k', r⟩, result := .suspended }) ∨
          (∃ v, perform a u = .ended v ∧ t = { v with result := .ended }) ∨
          ∃ v, perform a u = .restarted v ∧ t = { v with result := .restarted }) := by
  induction k generalizing s with
  | nil => exact .inl ⟨s, rfl, by simpa using h.symm⟩
  | cons a k ih =>
    cases ha : perform a s with
    | done u =>
      rw [runActions_cons_done r k ha] at h
      rcases ih h with ⟨v, hv, rfl⟩ | ⟨b, k', v, hv, h⟩
      · exact .inl ⟨v, by rw [performAll_cons_done k ha, hv], rfl⟩
      · exact .inr ⟨b, k', v, hv.cons ha, h⟩
    | suspended b v =>
      rw [runActions_cons_suspended r k ha] at h
      exact .inr ⟨a, k, s, ⟨[], rfl, rfl⟩, .inl ⟨b, v, ha, by simpa using h.symm⟩⟩
    | ended v =>
      rw [runActions_cons_ended r k ha] at h
      exact .inr ⟨a, k, s, ⟨[], rfl, rfl⟩, .inr (.inl ⟨v, ha, by simpa using h.symm⟩)⟩
    | restarted v =>
      rw [runActions_cons_restarted r k ha] at h
      exact .inr ⟨a, k, s, ⟨[], rfl, rfl⟩, .inr (.inr ⟨v, ha, by simpa using h.symm⟩)⟩
    | stuck f => simp [runActions, ha] at h

/-- R104: only a cursor operation is suspended, and it consumes the whole input; SKIP keeps the ticks it owes. -/
theorem perform_suspended {a b : Action} {s t : State} (h : perform a s = .suspended b t) :
    t.inp = [] ∧ ((∃ l, a = .wait l ∧ b = .wait l) ∨ (a = .sample ∧ b = .sample) ∨
      ∃ n k, k < n ∧ a = .skip n ∧ b = .skip (n - k) ∧ t.pos = s.pos + k) := by
  cases a with
  | wait l =>
    have o := waitFrom_outcomes l s.inp s
    rw [show waitFrom l s.inp s = _ from h] at o
    obtain ⟨rfl, -, e⟩ := o
    exact ⟨by rw [e], .inl ⟨l, rfl, rfl⟩⟩
  | sample =>
    have o := sampleFrom_outcomes s.inp s
    rw [show sampleFrom s.inp s = _ from h] at o
    obtain ⟨rfl, e⟩ := o
    exact ⟨by rw [e], .inr (.inl ⟨rfl, rfl⟩)⟩
  | skip n =>
    have o := skipFrom_outcomes s.inp n s
    rw [show skipFrom s.inp n s = _ from h] at o
    obtain ⟨k, hk, rfl, e⟩ := o
    exact ⟨by rw [e], .inr (.inr ⟨n, k, hk, rfl, rfl, by rw [e]⟩)⟩
  | append =>
    simp only [perform] at h
    split at h <;> simp at h
  | _ => simp [perform] at h

end Sys2Proof.Machine
end

