-- ==== Sys2Proof/Laws/Demodulator.lean ====
section
/-! SUPPORT. Laws/Demodulator.lean: what a bit cell can do when it completes, at both levels. -/

namespace Sys2Proof.Machine

theorem performAll_cons_eq_some {a : Action} {k : List Action} {s t : State} (h : performAll (a :: k) s = some t) :
    ∃ u, perform a s = .done u ∧ performAll k u = some t := by
  cases ha : perform a s with
  | done u => exact ⟨u, rfl, by rwa [performAll_cons_done k ha] at h⟩
  | _ => simp [performAll, ha] at h

/-- SKIP, where it is done: the position has moved by exactly `n` and nothing is owed. -/
theorem perform_skip_done {n : Nat} {s t : State} (h : perform (.skip n) s = .done t) :
    t = { s with pos := s.pos + n, skipCnt := 0, inp := t.inp } := by
  have o := skipFrom_outcomes s.inp n s
  rwa [show skipFrom s.inp n s = _ from h] at o

/-- R113: a cell that completes has advanced the position by 52 from its first tick and has emitted one record. -/
theorem cellBody_done {r : Role} {s t : State} (h : performAll (cellBody r) s = some t) :
    t = { s with
      pos := s.pos + 52, skipCnt := 0, role := (cellSuccessor r).1, ctl := (cellSuccessor r).2, inp := t.inp,
      sink := s.sink ++ [⟨s.cellStart, s.pos + 52, roleCategory r, .bitVal, bitByte s.cellVal⟩] } := by
  obtain ⟨_, ⟨⟩, h⟩ := performAll_cons_eq_some h
  obtain ⟨u, hu, h⟩ := performAll_cons_eq_some h
  obtain ⟨_, ⟨⟩, h⟩ := performAll_cons_eq_some h
  obtain ⟨v, hv, h⟩ := performAll_cons_eq_some h
  obtain ⟨_, ⟨⟩, h⟩ := performAll_cons_eq_some h
  obtain rfl := Option.some.inj h
  have e := perform_skip_done hv
  rw [perform_skip_done hu] at e
  rw [e]
  simp [endCell_eq, State.goto, Config.lowSkip, Config.highSkip, Nat.add_assoc]

/-- R111, R112: a data or stop cell that completes began at the position it was called at, with the level found there. -/
theorem levelCell_done {r : Role} {s t : State} (h : performAll (levelCell r) s = some t) :
    ∃ v, t = { s with
      pos := s.pos + 52, cellStart := s.pos, cellVal := v, skipCnt := 0, role := (cellSuccessor r).1,
      ctl := (cellSuccessor r).2, inp := t.inp,
      sink := s.sink ++ [⟨s.pos, s.pos + 52, roleCategory r, .bitVal, bitByte v⟩] } := by
  obtain ⟨_, ⟨⟩, h⟩ := performAll_cons_eq_some h
  obtain ⟨_, ⟨⟩, h⟩ := performAll_cons_eq_some h
  obtain ⟨u, hu, h⟩ := performAll_cons_eq_some h
  obtain ⟨_, ⟨⟩, h⟩ := performAll_cons_eq_some h
  have o := sampleFrom_outcomes ((s.withRole r).goto .first).inp ((s.withRole r).goto .first)
  rw [show sampleFrom _ _ = _ from hu] at o
  have e := cellBody_done h
  rw [o.1] at e
  exact ⟨u.port.pin, by rw [e]; rfl⟩

/-- R166, R167: the first tick of a cell. -/
theorem firstTick_eq (v : Level) (s : State) :
    firstTick v s = { s with
      pos := s.pos + 1, cellStart := s.pos, cellVal := v, skipCnt := 15, ctl := .skipLow } := rfl

/-- R171 to R173: the last tick of a cell. -/
theorem lastTick_eq (r : Role) (v : Level) (s : State) :
    lastTick r v s = { s with
      pos := s.pos + 1, skipCnt := 0, role := (cellSuccessor r).1, ctl := (cellSuccessor r).2,
      sink := s.sink ++ [⟨s.cellStart, s.pos + 1, roleCategory r, .bitVal, bitByte v⟩] } := rfl

end Sys2Proof.Machine
end

