-- ==== Sys2Proof/Laws/Emitter.lean ====
section
/-! SUPPORT. Laws/Emitter.lean: what the shared operations of the emitter can do, said once. -/

namespace Sys2Proof.Machine

/-- R29: an entry is valid if it lies below `tg_count`. -/
theorem entryValid_iff {s : State} {k : Nat} : s.entryValid k = true ↔ k < s.tg.length := decide_eq_true_iff

/-- R145: outside HALT a record is appended, and nothing else but the outcome is written. -/
theorem emitOne_eq {r : State → Record} {s : State} (h : s.ctl ≠ .halt) :
    emitOne r s = .next { s with sink := s.sink ++ [r s], result := .completed .nothing } := by
  rw [emitOne, operation_running h]
  rfl

/-- A record read from valid entries draws no free value. -/
theorem emitFromBuffers_eq {k : Nat} {r : State → Record} {s : State} (h : s.ctl ≠ .halt) (hk : k < s.tg.length) :
    emitFromBuffers k r s = .next { s with sink := s.sink ++ [r s], result := .completed .nothing } := by
  rw [emitFromBuffers, operation_running h, if_pos (entryValid_iff.mpr hk)]
  rfl

/-- A record read from an entry that is not valid is emitted too, and the next such read may find other values. -/
theorem emitFromBuffers_stale {k : Nat} {r : State → Record} {s : State} (h : s.ctl ≠ .halt) (hk : s.tg.length ≤ k) :
    emitFromBuffers k r s = .next { s with
      sink := s.sink ++ [r s], staleReads := s.staleReads + 1, result := .completed .nothing } := by
  rw [emitFromBuffers, operation_running h, if_neg (fun hv => Nat.not_lt.mpr hk (entryValid_iff.mp hv))]
  rfl

/-- R156, R157: with entry 5 valid, the crc record is emitted if the verdict is the one asked for. -/
theorem emitCrc_eq {ok : Bool} {lbl : Label} {s : State} (h : s.ctl ≠ .halt) (hk : 5 < s.tg.length) :
    emitCrc ok lbl s =
      if s.crcOk = ok then
        .next { s with sink := s.sink ++ [fieldRecord 5 lbl s], result := .completed .nothing }
      else .next { s with result := .notPerformed } := by
  rw [emitCrc, operation_running h]
  simp only [entryValid_iff.mpr hk, if_true]
  rfl

/-- R79: the text of a bit's record is the bit. -/
@[simp] theorem bitValText_bitByte (v : Level) : bitValText (bitByte v) = if v then "1" else "0" := by cases v <;> rfl

end Sys2Proof.Machine
end

