-- ==== Sys2Proof/Laws/Input.lean ====
section
/-! SUPPORT. Laws/Input.lean: what a stream on the line delivers (R160), said once for the terms of Safety.lean. -/

namespace Sys2Proof.Safety

open Sys2Proof.Machine

theorem levels_append (q r : List PortIn) : levels (q ++ r) = levels q ++ levels r := by simp [levels]

/-- A stream presented one sample per step delivers its levels. -/
theorem carries_onLine (l : List Level) : Carries (onLine l) l := by
  constructor
  · simp [onLine, sampleOrIdle, PortIn.ofLevel]
  · simp [levels, onLine, List.filter_map, Function.comp_def, PortIn.ofLevel]

theorem endsInSample_onLine {l : List Level} (h : l ≠ []) : EndsInSample (onLine l) := by
  refine ⟨PortIn.ofLevel (l.getLast h), ?_, symbol_ofLevel _⟩
  simp [onLine, List.getLast?_eq_some_getLast, h]

/-- A stream at the head of the input is delivered, and what follows it is left. -/
theorem delivers_onLine {s : State} {l : List Level} {rest : List PortIn} (h : l ≠ []) (hs : s.inp = onLine l ++ rest) :
    Delivers s l rest :=
  ⟨onLine l, hs, carries_onLine l, endsInSample_onLine h⟩

end Sys2Proof.Safety
end

