-- ==== Sys2Proof/Laws/PerInstr.lean ====
section
/-! SUPPORT. Laws/PerInstr.lean: statements about every instruction as syntax, one lemma per constructor. -/

namespace Sys2Proof.Laws.EncodeFits

/-- The code of an instruction's word has no more bits than its format (R87). -/
def Statement (i : Instr) : Prop := (encode i).code < 2 ^ (encode i).fmt.width

theorem waitlvl (l : Level) : Statement (.waitlvl l) := show 0 < 2 ^ 3 by decide
theorem sample : Statement .sample := by unfold Statement; decide
theorem skip (n : SkipLen) : Statement (.skip n) := by unfold Statement; cases n <;> decide
theorem pos : Statement .pos := by unfold Statement; decide
theorem emit (ss es : Nat) (c : Category) (l : Label) (d : Byte) : Statement (.emit ss es c l d) := by
  have : catCode c * 16 + lblCode l < 2 ^ 7 := by cases c <;> cases l <;> decide
  exact this
theorem reset : Statement .reset := by unfold Statement; decide
theorem demodStart : Statement .demodStart := by unfold Statement; decide
theorem demodData : Statement .demodData := by unfold Statement; decide
theorem demodStop : Statement .demodStop := by unfold Statement; decide
theorem expectStop : Statement .expectStop := by unfold Statement; decide
theorem decodeByte : Statement .decodeByte := by unfold Statement; decide
theorem checksum : Statement .checksum := by unfold Statement; decide
theorem flush : Statement .flush := by unfold Statement; decide
theorem append (b : Byte) (ss es : Nat) : Statement (.append b ss es) := show 0 < 2 ^ 3 by decide
theorem loop : Statement .loop := by unfold Statement; decide
theorem emitStartBit : Statement .emitStartBit := by unfold Statement; decide
theorem emitDataBit : Statement .emitDataBit := by unfold Statement; decide
theorem emitStopBit : Statement .emitStopBit := by unfold Statement; decide
theorem emitValue : Statement .emitValue := by unfold Statement; decide
theorem emitTelegram : Statement .emitTelegram := by unfold Statement; decide
theorem emitInit : Statement .emitInit := by unfold Statement; decide
theorem emitAddr : Statement .emitAddr := by unfold Statement; decide
theorem emitField2 : Statement .emitField2 := by unfold Statement; decide
theorem emitRequest : Statement .emitRequest := by unfold Statement; decide
theorem emitField4 : Statement .emitField4 := by unfold Statement; decide
theorem emitGoodCrc : Statement .emitGoodCrc := by unfold Statement; decide
theorem emitBadCrc : Statement .emitBadCrc := by unfold Statement; decide
theorem emitTerm : Statement .emitTerm := by unfold Statement; decide
theorem tReset : Statement .tReset := by unfold Statement; decide
theorem tHalted : Statement .tHalted := by unfold Statement; decide
theorem tEos : Statement .tEos := by unfold Statement; decide
theorem tIdle : Statement .tIdle := by unfold Statement; decide
theorem tHuntMiss : Statement .tHuntMiss := by unfold Statement; decide
theorem tHuntHit : Statement .tHuntHit := by unfold Statement; decide
theorem tFirst (v : Level) : Statement (.tFirst v) := by unfold Statement; cases v <;> decide
theorem tLowStep : Statement .tLowStep := by unfold Statement; decide
theorem tLowLast : Statement .tLowLast := by unfold Statement; decide
theorem tHighStep : Statement .tHighStep := by unfold Statement; decide
theorem tEndStart : Statement .tEndStart := by unfold Statement; decide
theorem tEndData : Statement .tEndData := by unfold Statement; decide
theorem tEndStop : Statement .tEndStop := by unfold Statement; decide

end Sys2Proof.Laws.EncodeFits
end

