-- ==== Sys2Proof/Laws/Step.lean ====
section
/-! SUPPORT. Laws/Step.lean: what a step can do, said once. -/

namespace Sys2Proof.Machine

/-- Nothing is taken up where nothing is suspended. -/
theorem resumption_none {s : State} (h : s.pending = none) : resumption s = none := by simp [resumption, h]

/-- While halted nothing is taken up. -/
theorem resumption_halted {s : State} (h : s.ctl = .halt) : resumption s = none := by
  simp [resumption, State.halted, h]

/-- What is suspended is taken up, unless POS or RESET is requested. -/
theorem resumption_eq {s : State} (h : s.ctl ≠ .halt) (hr : s.requestAvailable = false) : resumption s = s.pending := by
  simp [resumption, State.halted, h, hr]

theorem requestAvailable_none {s : State} (h : s.request = none) : s.requestAvailable = false := by
  simp [State.requestAvailable, h]

theorem step_of_resumption {s : State} {p : Pending} (h : resumption s = some p) : step s = resume p s := by
  simp [step, h]

/-- A step that answers a next state has gone on with the suspended operation, or decoded an instruction, which is a
transition only if it was not requested, and performed it. -/
theorem step_eq_next {s t : State} (h : step s = .next t) :
    (∃ p, resumption s = some p ∧ resume p s = .next t) ∨
      (resumption s = none ∧ undefinedSelector s = false ∧
        ∃ i, decode (fetchWord s) = .ok i ∧ (s.request = none ∨ isTransition i = false) ∧
          exec i (passFetch s) = .next t) := by
  unfold step at h
  split at h
  · next p hp => exact .inl ⟨p, hp, h⟩
  · next hn =>
    split at h
    · simp at h
    · next hu =>
      split at h
      · next i hi =>
        split at h
        · simp at h
        · next hr =>
          refine .inr ⟨hn, by simpa using hu, i, hi, ?_, h⟩
          cases hq : s.request <;> simp_all
      · simp at h

theorem fetchWord_tick {s : State} (h : s.request = none) : fetchWord s = selectorWord s s.port := by
  simp [fetchWord, h]

theorem fetchWord_request {s : State} {w : InstrWord} (h : s.request = some w) : fetchWord s = w := by
  simp [fetchWord, h]

theorem passFetch_tick {s : State} (h : s.request = none) : passFetch s = s.withInp s.inp.tail := by
  simp [passFetch, h]

theorem passFetch_request {s : State} {w : InstrWord} (h : s.request = some w) : passFetch s = s.withRequest none := by
  simp [passFetch, h]

/-- A state that R176 allows is never refused. -/
theorem undefinedSelector_false {s : State} (h : s.selectable = true) : undefinedSelector s = false := by
  simp [undefinedSelector, h]

/-- R176 read forwards: the states in which a step may begin. -/
theorem selectable_iff {s : State} :
    s.selectable = true ↔ s.tg.length < 7 ∧
      (s.ctl = .hunt → s.role = .start) ∧ (s.ctl = .first → s.role ≠ .start) ∧
      (s.ctl = .skipLow → 1 ≤ s.skipCnt.toNat ∧ s.skipCnt.toNat < 16) ∧
      (s.ctl = .skipHigh → 1 ≤ s.skipCnt.toNat ∧ s.skipCnt.toNat ≤ 36) := by
  unfold State.selectable State.tgCount Config.telegramLen Config.lowSkip Config.highSkip
  cases h : s.ctl <;> simp

/-- A requested operation is never held up by R176. -/
theorem undefinedSelector_request {s : State} {w : InstrWord} (h : s.request = some w) : undefinedSelector s = false := by
  simp [undefinedSelector, h]

end Sys2Proof.Machine
end

