-- ==== Sys2Proof/Tests/Slice0.lean ====
section
/-! SUPPORT. Tests/Slice0.lean: our own tests: ill-formed terms refused, decoding of words written out from the spec's
patterns, single steps against the spec's vectors (V and P numbers are those of `95_test_vectors.md`), and for every
statement with hypotheses a state and operands that meet them. -/

namespace Sys2Proof.Tests

open Sys2Proof Sys2Proof.Machine Sys2Proof.Safety

/-! ### Well-formedness: an ill-formed term for each check -/

/-- R7, R100: the block waits for level 0 only. -/
theorem test_wf_waitlvl_high : (Instr.waitlvl true).wellFormed = false := by decide
/-- R145: EMIT takes any codes in use and any byte. -/
theorem test_wf_emit_value : (Instr.emit 60 476 .value .byteHex 0xa8).wellFormed = true := by decide
theorem test_wf_emit_any : (Instr.emit 0 52 .startBit .byteHex 0xff).wellFormed = true := by decide

/-! ### Decoding: one word of each constructor, its bits written out from `opcode_table.json` -/

theorem test_decode_waitlvl : decode ⟨.ctl3, 0, 0b000, []⟩ = .ok (.waitlvl false) := rfl
theorem test_decode_sample : decode ⟨.ctl3, 0, 0b001, []⟩ = .ok (.sample) := rfl
theorem test_decode_skip_low : decode ⟨.ctl3, 0, 0b010, []⟩ = .ok (.skip .low) := rfl
theorem test_decode_skip_high : decode ⟨.ctl3, 0, 0b011, []⟩ = .ok (.skip .high) := rfl
theorem test_decode_pos : decode ⟨.ctl3, 0, 0b100, []⟩ = .ok (.pos) := rfl
theorem test_decode_emit : decode ⟨.ann7, 1, 0b0110001, [60, 476, 0xa8]⟩ = .ok (.emit 60 476 .value .byteHex 0xa8) := rfl
theorem test_decode_reset : decode ⟨.sel10, 1, 0b1000000000, []⟩ = .ok (.reset) := rfl
theorem test_decode_demodStart : decode ⟨.role2, 0, 0b00, []⟩ = .ok (.demodStart) := rfl
theorem test_decode_demodData : decode ⟨.role2, 0, 0b01, []⟩ = .ok (.demodData) := rfl
theorem test_decode_demodStop : decode ⟨.role2, 0, 0b10, []⟩ = .ok (.demodStop) := rfl
theorem test_decode_expectStop : decode ⟨.role2, 1, 0b10, []⟩ = .ok (.expectStop) := rfl
theorem test_decode_decodeByte : decode ⟨.frame10, 0, 0b0100000001, []⟩ = .ok (.decodeByte) := rfl
theorem test_decode_checksum : decode ⟨.tgm56, 0, 0x01020304050007, []⟩ = .ok (.checksum) := rfl
theorem test_decode_flush : decode ⟨.cnt3, 0, 0b111, []⟩ = .ok (.flush) := rfl
theorem test_decode_append : decode ⟨.cnt3, 0, 0b110, [7, 3180, 3596]⟩ = .ok (.append 7 3180 3596) := rfl
theorem test_decode_loop : decode ⟨.cnt3, 2, 0b111, []⟩ = .ok (.loop) := rfl
theorem test_decode_emitStartBit : decode ⟨.ann7, 0, 0b0000000, []⟩ = .ok (.emitStartBit) := rfl
theorem test_decode_emitDataBit : decode ⟨.ann7, 0, 0b0010000, []⟩ = .ok (.emitDataBit) := rfl
theorem test_decode_emitStopBit : decode ⟨.ann7, 0, 0b0100000, []⟩ = .ok (.emitStopBit) := rfl
theorem test_decode_emitValue : decode ⟨.ann7, 0, 0b0110001, []⟩ = .ok (.emitValue) := rfl
theorem test_decode_emitTelegram : decode ⟨.ann7, 0, 0b1000010, []⟩ = .ok (.emitTelegram) := rfl
theorem test_decode_emitInit : decode ⟨.ann7, 0, 0b1010011, []⟩ = .ok (.emitInit) := rfl
theorem test_decode_emitAddr : decode ⟨.ann7, 0, 0b1010100, []⟩ = .ok (.emitAddr) := rfl
theorem test_decode_emitField2 : decode ⟨.ann7, 0, 0b1010101, []⟩ = .ok (.emitField2) := rfl
theorem test_decode_emitRequest : decode ⟨.ann7, 0, 0b1010110, []⟩ = .ok (.emitRequest) := rfl
theorem test_decode_emitField4 : decode ⟨.ann7, 0, 0b1010111, []⟩ = .ok (.emitField4) := rfl
theorem test_decode_emitGoodCrc : decode ⟨.ann7, 0, 0b1011000, []⟩ = .ok (.emitGoodCrc) := rfl
theorem test_decode_emitBadCrc : decode ⟨.ann7, 0, 0b1011001, []⟩ = .ok (.emitBadCrc) := rfl
theorem test_decode_emitTerm : decode ⟨.ann7, 0, 0b1011010, []⟩ = .ok (.emitTerm) := rfl
theorem test_decode_tReset : decode ⟨.sel10, 0, 0b1101111011, []⟩ = .ok (.tReset) := rfl
theorem test_decode_tHalted : decode ⟨.sel10, 0, 0b0111001111, []⟩ = .ok (.tHalted) := rfl
theorem test_decode_tEos : decode ⟨.sel10, 0, 0b0110110111, []⟩ = .ok (.tEos) := rfl
theorem test_decode_tIdle : decode ⟨.sel10, 0, 0b0000101011, []⟩ = .ok (.tIdle) := rfl
theorem test_decode_tHuntMiss : decode ⟨.sel10, 0, 0b0010000001, []⟩ = .ok (.tHuntMiss) := rfl
theorem test_decode_tHuntHit : decode ⟨.sel10, 0, 0b0010000010, []⟩ = .ok (.tHuntHit) := rfl
theorem test_decode_tFirst : decode ⟨.sel10, 0, 0b0010011001, []⟩ = .ok (.tFirst true) := rfl
theorem test_decode_tFirst_low : decode ⟨.sel10, 0, 0b0010010110, []⟩ = .ok (.tFirst false) := rfl
theorem test_decode_tLowStep : decode ⟨.sel10, 0, 0b0010100101, []⟩ = .ok (.tLowStep) := rfl
theorem test_decode_tLowLast : decode ⟨.sel10, 0, 0b0010101011, []⟩ = .ok (.tLowLast) := rfl
theorem test_decode_tHighStep : decode ⟨.sel10, 0, 0b0010110001, []⟩ = .ok (.tHighStep) := rfl
theorem test_decode_tEndStart : decode ⟨.sel10, 0, 0b0010110010, []⟩ = .ok (.tEndStart) := rfl
theorem test_decode_tEndData : decode ⟨.sel10, 0, 0b0010110111, []⟩ = .ok (.tEndData) := rfl
theorem test_decode_tEndStop : decode ⟨.sel10, 0, 0b0010111010, []⟩ = .ok (.tEndStop) := rfl

/-! ### Decoding: what is refused, by name -/

theorem test_decode_too_wide : decode ⟨.ctl3, 0, 8, []⟩ = .error .codeTooWide := rfl
/-- R82, R84: role code 3 has no operation. -/
theorem test_decode_role3 : decode ⟨.role2, 0, 0b11, []⟩ = .error .noSuchRow := rfl
/-- R83, R176: the selector of role 3 at the end of a cell matches no row. -/
theorem test_decode_selector_role3 : decode ⟨.sel10, 0, 0b0010111110, []⟩ = .error .noSuchRow := rfl
theorem test_decode_selector_ctl5 : decode ⟨.sel10, 0, 0b0011010000, []⟩ = .error .noSuchRow := rfl
/-- R84: control code 5 names no state. -/
theorem test_decode_pos_ctl5 : decode ⟨.ctl3, 0, 0b101, []⟩ = .error .unusedCtlCode := rfl
/-- R84: category 6 and label 11 are never emitted. -/
theorem test_decode_cat6 : decode ⟨.ann7, 0, 0b1100000, []⟩ = .error .unusedRecordCode := rfl
theorem test_decode_lbl11 : decode ⟨.ann7, 0, 0b1011011, []⟩ = .error .unusedRecordCode := rfl
/-- R145: the data has 8 bits. -/
theorem test_decode_emit_data : decode ⟨.ann7, 1, 0b0010000, [0, 52, 256]⟩ = .error .dataOutOfRange := rfl
/-- A pair that no record kind has is EMIT's own: (start_bit, BYTEHEX), with any byte. -/
theorem test_decode_emit_pair : decode ⟨.ann7, 0, 0b0000001, [0, 52, 0xff]⟩ =
    .ok (.emit 0 52 .startBit .byteHex 0xff) := rfl
theorem test_decode_append_full : decode ⟨.cnt3, 1, 0b111, []⟩ = .error .bufferFull := rfl
theorem test_decode_surplus : decode ⟨.ctl3, 0, 0b001, [1]⟩ = .error .surplusOperand := rfl

/-! ### Bare words of the opcode table (log 6) -/

theorem test_table_skip : decodeTableWord 8 0b011 = some (.skip .high) := rfl
theorem test_table_flush : decodeTableWord 8 0b111 = some .flush := rfl
theorem test_table_crc : decodeTableWord 8 0b1011001 = some .emitBadCrc := rfl
theorem test_table_endStop : decodeTableWord 16 0b0010111010 = some .tEndStop := rfl
theorem test_table_frame : decodeTableWord 16 0b0101111111 = some .decodeByte := rfl
theorem test_table_telegram : decodeTableWord 56 0xa8120012000000 = some .checksum := rfl
theorem test_table_none : decodeTableWord 8 0b1101111 = none := rfl

/-! ### States -/

/-- A state with an input, as reset leaves the rest. -/
def withInput (q : List PortIn) : State := { State.reset with inp := q }

/-- The state before the 52nd tick of data cell `i` of a frame whose start bit was found at 8 (R178, P1). -/
def dataEnd (i : Nat) (v : Level) (acc : Byte) (q : List PortIn) : State :=
  { State.reset with
    pos := 111 + 52 * i, ctl := .skipHigh, role := .data, skipCnt := 1, cellStart := 60 + 52 * i, cellVal := v,
    bitIdx := BitVec.ofNat 4 i, acc := acc, startBitSample := 60, inp := q }

/-- The seven entries of P1's telegram, with a sixth byte of choice. -/
def entries (c : Byte) : List TgEntry :=
  [⟨1, 60, 476⟩, ⟨2, 580, 996⟩, ⟨3, 1100, 1516⟩, ⟨4, 1620, 2036⟩, ⟨5, 2140, 2556⟩, ⟨c, 2660, 3076⟩, ⟨7, 3180, 3596⟩]

/-- The state before the last tick of P1's seventh frame, or of its first frames with `n` bytes held. -/
def stopEnd (n : Nat) (q : List PortIn) : State :=
  { State.reset with
    pos := 3647, ctl := .skipHigh, role := .stop, skipCnt := 1, cellStart := 3596, cellVal := true, bitIdx := 8,
    acc := 7, startBitSample := 3180, byteEnd := 3596, tg := (entries 0).take n, inp := q }

/-- Between two frames, with the entries given held. -/
def hunting (tg : List TgEntry) (q : List PortIn) : State :=
  { State.reset with
    pos := 3648, cellStart := 3596, cellVal := true, bitIdx := 8, acc := 7, startBitSample := 3180, byteEnd := 3596,
    tg := tg, inp := q }

/-- The same, with an operation requested. -/
def asking (w : InstrWord) (s : State) : State := { s with request := some w }

/-- One sample, and the other symbols. -/
def hi : PortIn := PortIn.ofLevel true
def lo : PortIn := PortIn.ofLevel false
def none_ : PortIn := PortIn.quiet
def eos : PortIn := PortIn.endOfStream
def rst : PortIn := PortIn.reset

/-! ### Single steps against the spec's vectors -/

/-- V1: WAITLVL 0 on `H^8 L…` completes at 8 and returns 8. -/
theorem test_waitlvl_v1 : exec (.waitlvl false) (withInput (onLine (highTicks 8 ++ lowTicks 2))) = .next
    { withInput (onLine (lowTicks 2)) with pos := 8, result := .completed (.position 8) } := rfl
/-- V4: no low level before the end: EndOfStream at 20. -/
theorem test_waitlvl_v4 : exec (.waitlvl false) (withInput (streamThenEos (highTicks 20))) = .next
    { withInput [] with pos := 20, ctl := .halt, result := .ended } := rfl
/-- V7: SAMPLE returns the level and consumes nothing. -/
theorem test_sample_v7 : exec .sample { withInput [none_, lo, hi] with pos := 8 } = .next
    { withInput [lo, hi] with pos := 8, result := .completed (.level false) } := rfl
/-- V9: SAMPLE at the end of the stream. -/
theorem test_sample_v9 : exec .sample { withInput [eos] with pos := 60 } = .next
    { withInput [] with pos := 60, ctl := .halt, result := .ended } := rfl
/-- V11: SKIP 36 completes exactly at the end of what is delivered. -/
theorem test_skip_v11 : exec (.skip .high) { withInput (onLine (highTicks 36)) with pos := 24 } = .next
    { withInput [] with pos := 60, result := .completed .nothing } := rfl
/-- V12: one tick short: EndOfStream, with one tick owed. -/
theorem test_skip_v12 : exec (.skip .high) { withInput (streamThenEos (highTicks 35)) with pos := 24 } = .next
    { withInput [] with pos := 59, ctl := .halt, skipCnt := 1, result := .ended } := rfl
/-- V14: six of the 36 ticks are delivered: suspended with 30 owed. -/
def suspendedSkip : State :=
  { withInput [] with pos := 30, skipCnt := 30, pending := some ⟨[.skip 30], .nothing⟩, result := .suspended }
theorem test_skip_v14 : exec (.skip .high) { withInput (onLine (highTicks 6)) with pos := 24 } = .next suspendedSkip := rfl
/-- R104: the sample that arrives is taken by the suspended SKIP, and no record is emitted. -/
theorem test_skip_resumes : step { suspendedSkip with inp := onLine (highTicks 31) } = .next
    { withInput [hi] with pos := 60, result := .completed .nothing } := rfl
/-- R103: POS does not wait for it; R59: another operation does. -/
theorem test_skip_pos : step { suspendedSkip with request := some (encode .pos) } = .next
    { suspendedSkip with result := .completed (.position 30) } := rfl
theorem test_skip_sample_waits : step { suspendedSkip with request := some (encode .sample), inp := [lo] } = .next
    { suspendedSkip with
      pos := 31, skipCnt := 29, pending := some ⟨[.skip 29], .nothing⟩, request := some (encode .sample) } := rfl
/-- V13: POS returns the position, in HALT too. -/
theorem test_pos_v13 : exec .pos { withInput [] with pos := 59, ctl := .halt } = .next
    { withInput [] with pos := 59, ctl := .halt, result := .completed (.position 59) } := rfl
/-- V20: DEMOD.START on `H^8 Z`. -/
theorem test_demodStart_v20 : exec .demodStart (withInput (onLine (highTicks 8 ++ zeroCell))) = .next
    { withInput [] with
      pos := 60, ctl := .first, role := .data, cellStart := 8, sink := [⟨8, 60, .startBit, .bitVal, 0⟩],
      result := .completed (.cell false 8 60) } := rfl
/-- V21: only the first tick of the cell is low. -/
theorem test_demodStart_v21 : exec .demodStart (withInput (onLine (lowTicks 3 ++ highTicks 49))) = .next
    { withInput [] with
      pos := 52, ctl := .first, role := .data, sink := [⟨0, 52, .startBit, .bitVal, 0⟩],
      result := .completed (.cell false 0 52) } := rfl
/-- V24: tick 0 is low, the rest high: the bit is 0. -/
theorem test_demodData_v24 :
    exec .demodData { withInput (onLine (lowTicks 1 ++ highTicks 51)) with pos := 112 } = .next
      { withInput [] with
        pos := 164, ctl := .first, role := .data, cellStart := 112, sink := [⟨112, 164, .dataBit, .bitVal, 0⟩],
        result := .completed (.cell false 112 164) } := rfl
/-- V25: tick 0 is high, the rest low: the bit is 1. -/
theorem test_demodData_v25 :
    exec .demodData { withInput (onLine (highTicks 1 ++ lowTicks 51)) with pos := 112 } = .next
      { withInput [] with
        pos := 164, ctl := .first, role := .data, cellStart := 112, cellVal := true,
        sink := [⟨112, 164, .dataBit, .bitVal, 1⟩], result := .completed (.cell true 112 164) } := rfl
/-- V27: a low stop cell is annotated, no fault. -/
theorem test_demodStop_v27 : exec .demodStop { withInput (onLine (lowTicks 52)) with pos := 468 } = .next
    { withInput [] with
      pos := 520, cellStart := 468, sink := [⟨468, 520, .stopBit, .bitVal, 0⟩],
      result := .completed (.cell false 468 520) } := rfl
/-- V26, read by EXPECT_STOP: nothing is returned. -/
theorem test_expectStop_v26 : exec .expectStop { withInput (onLine oneCell) with pos := 476 } = .next
    { withInput [] with
      pos := 528, cellStart := 476, cellVal := true, sink := [⟨476, 528, .stopBit, .bitVal, 1⟩],
      result := .completed .nothing } := rfl
/-- V50: `02 ^ 03 ^ 04 ^ 05 = 00`, whatever bytes 0, 5 and 6 are. -/
theorem test_checksum_v50 : exec .checksum (hunting (entries 6) []) = .next
    { hunting (entries 6) [] with result := .completed (.byte 0) } := rfl
/-- V57: a placed telegram is the buffer's: `31 ^ 00 ^ 12 ^ 01 = 22`. -/
theorem test_checksum_v57 : (match step (State.reset.withFetchWord 56 0xa8310012012200) with
    | .next t => decide (t.result = .completed (.byte 0x22)) && t.tg.length == 7
    | _ => false) = true := by decide
/-- V70: APPEND to an empty buffer. -/
theorem test_append_v70 : exec (.append 1 60 476) State.reset = .next
    { State.reset with tg := [⟨1, 60, 476⟩], result := .completed .nothing } := rfl
/-- V71: APPEND of the seventh byte. -/
theorem test_append_v71 : exec (.append 7 3180 3596) (hunting ((entries 0).take 6) []) = .next
    { hunting (entries 0) [] with result := .completed .nothing } := rfl
/-- V72: FLUSH emits records 77 to 84 of P1. -/
theorem test_flush_v72 : exec .flush (hunting (entries 0) []) = .next
    { hunting [] [] with
      sink := [⟨60, 3596, .telegram, .telegram, 0⟩, ⟨60, 476, .scsField, .init, 0⟩, ⟨580, 996, .scsField, .addr, 0⟩,
        ⟨1100, 1516, .scsField, .field2, 0⟩, ⟨1620, 2036, .scsField, .request, 0⟩, ⟨2140, 2556, .scsField, .field4, 0⟩,
        ⟨2660, 3076, .scsField, .goodCrc, 0⟩, ⟨3180, 3596, .scsField, .term, 0⟩],
      result := .completed .nothing } := rfl
/-- V75: three bytes and then the end: nothing is flushed. -/
theorem test_loop_v75 : exec .loop (hunting ((entries 0).take 3) [eos]) = .next
    { hunting ((entries 0).take 3) [] with ctl := .halt, result := .ended } := rfl
/-- V74: with seven bytes the loop flushes, then hunts. -/
theorem test_loop_v74 : exec .loop (hunting (entries 0) [hi]) = .next
    { flushTelegram (hunting (entries 0) []) with
      pos := 3649, result := .suspended,
      pending := some ⟨.wait false :: .openStart :: (cellBody .start ++ (byteFrame.drop 9 ++ [.append])), .nothing⟩ } := rfl
/-- R200: RESET leaves the records emitted. -/
theorem test_reset : exec .reset (flushTelegram (hunting (entries 0) [])) = .next
    { State.reset with sink := flushRecords (hunting (entries 0) []), result := .completed .nothing } := rfl

/-- V80 to V88: the record words for positions of 16 bits. -/
theorem test_record_words :
    [(⟨8, 60, .startBit, .bitVal, 0⟩ : Record), ⟨60, 112, .dataBit, .bitVal, 1⟩, ⟨476, 528, .stopBit, .bitVal, 1⟩,
      ⟨60, 476, .value, .byteHex, 1⟩, ⟨60, 3596, .telegram, .telegram, 0⟩, ⟨60, 476, .scsField, .init, 0⟩,
      ⟨2660, 3076, .scsField, .goodCrc, 0⟩, ⟨2660, 3076, .scsField, .badCrc, 0⟩,
      ⟨3180, 3596, .scsField, .term, 0⟩].map (Record.word 16) =
    [0x0004001e0000, 0x001e00381001, 0x00ee01082001, 0x001e00ee3101, 0x001e07064200, 0x001e00ee5300, 0x053206025800,
      0x053206025900, 0x063607065a00] := by decide
/-- V30 to V37, P1: the texts. -/
theorem test_label_texts :
    [labelText .byteHex 0xa8, labelText .byteHex 0xfd, labelText .bitVal 1, labelText .field2 0, labelText .goodCrc 0] =
      ["a8", "fd", "1", "??", "good crc"] := by decide

/-- R145: EMIT appends behind the records there are. -/
theorem test_emit : exec (.emit 8 60 .startBit .bitVal 0) { State.reset with sink := [⟨0, 1, .value, .byteHex, 3⟩] } = .next
    { State.reset with
      sink := [⟨0, 1, .value, .byteHex, 3⟩, ⟨8, 60, .startBit, .bitVal, 0⟩], result := .completed .nothing } := rfl
/-- R146, D10: its data is 0 whatever the cell's value. -/
theorem test_emitStartBit : exec .emitStartBit (dataEnd 0 true 1 []) = .next
    { dataEnd 0 true 1 [] with sink := [⟨60, 112, .startBit, .bitVal, 0⟩], result := .completed .nothing } := rfl
/-- V22. -/
theorem test_emitDataBit : exec .emitDataBit (dataEnd 0 true 1 []) = .next
    { dataEnd 0 true 1 [] with sink := [⟨60, 112, .dataBit, .bitVal, 1⟩], result := .completed .nothing } := rfl
/-- P1 record 76. -/
theorem test_emitStopBit : exec .emitStopBit (stopEnd 6 []) = .next
    { stopEnd 6 [] with sink := [⟨3596, 3648, .stopBit, .bitVal, 1⟩], result := .completed .nothing } := rfl
/-- P1 record 75. -/
theorem test_emitValue : exec .emitValue (stopEnd 6 []) = .next
    { stopEnd 6 [] with sink := [⟨3180, 3596, .value, .byteHex, 7⟩], result := .completed .nothing } := rfl
/-- P1 record 77. -/
theorem test_emitTelegram : exec .emitTelegram (hunting (entries 0) []) = .next
    { hunting (entries 0) [] with sink := [⟨60, 3596, .telegram, .telegram, 0⟩], result := .completed .nothing } := rfl
/-- P1 record 78. -/
theorem test_emitInit : exec .emitInit (hunting (entries 0) []) = .next
    { hunting (entries 0) [] with sink := [⟨60, 476, .scsField, .init, 0⟩], result := .completed .nothing } := rfl
/-- P1 record 79. -/
theorem test_emitAddr : exec .emitAddr (hunting (entries 0) []) = .next
    { hunting (entries 0) [] with sink := [⟨580, 996, .scsField, .addr, 0⟩], result := .completed .nothing } := rfl
/-- P1 record 80. -/
theorem test_emitField2 : exec .emitField2 (hunting (entries 0) []) = .next
    { hunting (entries 0) [] with sink := [⟨1100, 1516, .scsField, .field2, 0⟩], result := .completed .nothing } := rfl
/-- P1 record 81. -/
theorem test_emitRequest : exec .emitRequest (hunting (entries 0) []) = .next
    { hunting (entries 0) [] with sink := [⟨1620, 2036, .scsField, .request, 0⟩], result := .completed .nothing } := rfl
/-- P1 record 82. -/
theorem test_emitField4 : exec .emitField4 (hunting (entries 0) []) = .next
    { hunting (entries 0) [] with sink := [⟨2140, 2556, .scsField, .field4, 0⟩], result := .completed .nothing } := rfl
/-- P1 record 83. -/
theorem test_emitGoodCrc : exec .emitGoodCrc (hunting (entries 0) []) = .next
    { hunting (entries 0) [] with sink := [⟨2660, 3076, .scsField, .goodCrc, 0⟩], result := .completed .nothing } := rfl
/-- P2a record 83. -/
theorem test_emitBadCrc : exec .emitBadCrc (hunting (entries 6) []) = .next
    { hunting (entries 6) [] with sink := [⟨2660, 3076, .scsField, .badCrc, 0⟩], result := .completed .nothing } := rfl
/-- P1 record 84. -/
theorem test_emitTerm : exec .emitTerm (hunting (entries 0) []) = .next
    { hunting (entries 0) [] with sink := [⟨3180, 3596, .scsField, .term, 0⟩], result := .completed .nothing } := rfl
/-- R157: with a right checksum the bad record is not emitted. -/
theorem test_emitBadCrc_not : exec .emitBadCrc (hunting (entries 0) []) = .next
    { hunting (entries 0) [] with result := .notPerformed } := rfl

/-- V120: reset in the middle of a byte. -/
theorem test_tReset : step (dataEnd 3 true 1 [⟨true, true, true, true⟩]) = .next State.reset := rfl
/-- R162: a sample after the halt. -/
theorem test_tHalted : step { withInput [hi, lo] with pos := 9, ctl := .halt } = .next
    { withInput [lo] with pos := 9, ctl := .halt } := rfl
/-- R163, R187: end of stream wins over a sample presented with it. -/
theorem test_tEos : step (stopEnd 6 [⟨false, true, true, true⟩]) = .next { stopEnd 6 [] with ctl := .halt } := rfl
/-- R164. -/
theorem test_tIdle : step (dataEnd 3 true 1 [⟨false, false, false, true⟩]) = .next (dataEnd 3 true 1 []) := rfl
/-- Section 2.7, step 0. -/
theorem test_tHuntMiss : step (withInput [hi]) = .next { withInput [] with pos := 1 } := rfl
/-- Section 2.7, step 8. -/
theorem test_tHuntHit : step { withInput [lo] with pos := 8 } = .next
    { withInput [] with pos := 9, ctl := .skipLow, skipCnt := 15, cellStart := 8 } := rfl
/-- Section 2.7, step 60. -/
theorem test_tFirst : step { withInput [hi] with pos := 60, ctl := .first, role := .data, cellStart := 8 } = .next
    { withInput [] with
      pos := 61, ctl := .skipLow, role := .data, skipCnt := 15, cellStart := 60, cellVal := true } := rfl
/-- Section 2.7, step 22. -/
theorem test_tLowStep : step { withInput [lo] with pos := 22, ctl := .skipLow, skipCnt := 2, cellStart := 8 } = .next
    { withInput [] with pos := 23, ctl := .skipLow, skipCnt := 1, cellStart := 8 } := rfl
/-- Section 2.7, step 23. -/
theorem test_tLowLast : step { withInput [lo] with pos := 23, ctl := .skipLow, skipCnt := 1, cellStart := 8 } = .next
    { withInput [] with pos := 24, ctl := .skipHigh, skipCnt := 36, cellStart := 8 } := rfl
/-- Section 2.7, step 24. -/
theorem test_tHighStep :
    step { withInput [lo] with pos := 24, ctl := .skipHigh, skipCnt := 36, cellStart := 8 } = .next
      { withInput [] with pos := 25, ctl := .skipHigh, skipCnt := 35, cellStart := 8 } := rfl
/-- Section 2.7, step 59; the byte before is forgotten. -/
theorem test_tEndStart :
    step { withInput [hi] with pos := 59, ctl := .skipHigh, skipCnt := 1, cellStart := 8, bitIdx := 8, acc := 0xff } = .next
      { withInput [] with
        pos := 60, ctl := .first, role := .data, cellStart := 8, startBitSample := 60,
        sink := [⟨8, 60, .startBit, .bitVal, 0⟩] } := rfl
/-- Section 2.7, step 111. -/
theorem test_tEndData : step (dataEnd 0 true 0 [hi]) = .next
    { dataEnd 0 true 1 [] with
      pos := 112, ctl := .first, skipCnt := 0, bitIdx := 1, sink := [⟨60, 112, .dataBit, .bitVal, 1⟩] } := rfl
/-- V33: data bit 7 gives 0x80, and the value record. -/
theorem test_tEndData_eighth : step (dataEnd 7 true 0 [hi]) = .next
    { dataEnd 7 true 0x80 [] with
      pos := 476, ctl := .first, role := .stop, skipCnt := 0, bitIdx := 8, byteEnd := 476,
      sink := [⟨424, 476, .dataBit, .bitVal, 1⟩, ⟨60, 476, .value, .byteHex, 0x80⟩] } := rfl
/-- P6a: the seventh byte's last tick appends it and flushes. -/
theorem test_tEndStop_seventh : step (stopEnd 6 [hi]) = .next
    { hunting [] [] with
      sink := ⟨3596, 3648, .stopBit, .bitVal, 1⟩ :: flushRecords (hunting (entries 0) []) } := rfl
/-- The third byte of a telegram is appended and nothing flushed. -/
theorem test_tEndStop : step (stopEnd 2 [lo]) = .next
    { hunting ((entries 0).take 2 ++ [⟨7, 3180, 3596⟩]) [] with
      sink := [⟨3596, 3648, .stopBit, .bitVal, 1⟩] } := rfl
/-- An operation that is requested takes the place of a transition, and no symbol is taken. -/
theorem test_request : step (asking ⟨.ctl3, 0, 0b100, []⟩ (withInput [rst])) = .next
    { withInput [rst] with result := .completed (.position 0) } := rfl
/-- R83: a transition is selected, not requested. -/
theorem test_transition_requested : step (asking (encode .tHuntHit) { State.reset with ctl := .halt }) =
    .refused .transitionRequested := rfl


/-! ### For every statement with hypotheses: states and operands that meet them, clause by clause -/

/-- A stream on the line behind a state. -/
def ahead (l : List Level) (s : State) : State := { s with inp := onLine l }

theorem witness_DecodeEncodeRoundTrip :
    (Instr.emit 60 476 .value .byteHex 0xff).wellFormed = true ∧ (Instr.waitlvl false).wellFormed = true := ⟨rfl, rfl⟩

theorem witness_DecodedInstructionsAreWellFormed : decode ⟨.ann7, 1, 0b0010000, [0, 52, 1]⟩ =
    .ok (.emit 0 52 .dataBit .bitVal 1) := rfl

theorem witness_StepRunsDecodedInstruction :
    (resumption (withInput [lo]) = none ∧ undefinedSelector (withInput [lo]) = false ∧ decode (fetchWord (withInput [lo])) = .ok .tHuntHit ∧
      Instr.tHuntHit.wellFormed = true ∧ (withInput [lo]).request = none) ∧
    (resumption (asking (encode .loop) State.reset) = none ∧ isTransition .loop = false ∧
      undefinedSelector (asking (encode .loop) State.reset) = false ∧
      decode (fetchWord (asking (encode .loop) State.reset)) = .ok .loop ∧ Instr.loop.wellFormed = true ∧
      (asking (encode .loop) State.reset).request = some (encode .loop)) ∧
    resumption suspendedSkip = some ⟨[.skip 30], .nothing⟩ :=
  ⟨⟨rfl, rfl, rfl, rfl, rfl⟩, ⟨rfl, rfl, rfl, rfl, rfl, rfl⟩, rfl⟩

theorem witness_PlacedTableWordIsFetched :
    decodeTableWord 16 0b1000000000 = some .tReset ∧ decodeTableWord 8 0b101 = some (.append 0 0 0) := ⟨rfl, rfl⟩

theorem witness_inv_data : BlockInv (dataEnd 7 true 0 [hi]) :=
  ⟨by decide, by decide, by decide, ⟨by decide, by decide, by decide⟩, by decide, by decide⟩

theorem witness_inv_stop : BlockInv (stopEnd 6 [hi]) :=
  ⟨by decide, by decide, by decide, ⟨by decide, by decide, by decide⟩, by decide, by decide⟩

theorem witness_inv_halted : BlockInv { stopEnd 6 [hi] with ctl := .halt } :=
  ⟨by decide, by decide, by decide, ⟨by decide, by decide, by decide⟩, by decide, by decide⟩

theorem inv_hunting_quiet (n : Nat) (h : n ≤ 6) : BlockInv (hunting ((entries 0).take n) []) := by
  interval_cases n <;>
    exact ⟨by decide, by decide, by decide, ⟨by decide, by decide, by decide⟩, by decide, by decide⟩

/-- The invariant says nothing of the input to come. -/
theorem inv_hunting (n : Nat) (q : List PortIn) (h : n ≤ 6) : BlockInv (hunting ((entries 0).take n) q) :=
  inv_hunting_quiet n h

theorem witness_StepKeepsInvariant :
    (∃ t, BlockInv (dataEnd 7 true 0 [hi]) ∧ step (dataEnd 7 true 0 [hi]) = .next t) ∧
      ∃ t, BlockInv (stopEnd 6 [hi]) ∧ step (stopEnd 6 [hi]) = .next t :=
  ⟨⟨_, witness_inv_data, rfl⟩, _, witness_inv_stop, rfl⟩

theorem witness_InvariantStatesAlwaysStep : BlockInv (stopEnd 6 [hi]) := witness_inv_stop

/-- A state that is inside a skip with `n` ticks to go. -/
def skipping (c : Ctl) (n : BitVec 6) (q : List PortIn) : State :=
  { State.reset with pos := 9, ctl := c, skipCnt := n, cellStart := 8, inp := q }

theorem witness_UndefinedStatesAreRefused :
    ∀ s ∈ [{ State.reset with ctl := .first, role := .start }, { State.reset with role := .data },
        skipping .skipLow 0 [], skipping .skipLow 16 [hi], skipping .skipHigh 0 [], skipping .skipHigh 37 [eos],
        hunting (entries 0) [lo]],
      Hardwired s ∧ s.port.rst = false ∧
        ((s.ctl = .first ∧ s.role = .start) ∨ (s.ctl = .hunt ∧ s.role ≠ .start) ∨
          (s.ctl = .skipLow ∧ (s.skipCnt = 0 ∨ 15 < s.skipCnt.toNat)) ∨
          (s.ctl = .skipHigh ∧ (s.skipCnt = 0 ∨ 36 < s.skipCnt.toNat)) ∨ s.tg.length = 7) := by decide

theorem witness_PosCountsConsumedSamples :
    ∀ p ∈ [hi, lo, none_, eos, rst], ∃ t, Hardwired (dataEnd 7 true 0 [p]) ∧ step (dataEnd 7 true 0 [p]) = .next t := by
  intro p hp
  fin_cases hp <;> exact ⟨_, ⟨rfl, rfl⟩, rfl⟩

theorem witness_PosCountsConsumedSamples_halted :
    ∃ t, step { dataEnd 7 true 0 [hi] with ctl := .halt } = .next t := ⟨_, rfl⟩

theorem witness_StepAppendsRecordsByTransition :
    (∃ t, decode (fetchWord (skipping .skipHigh 1 [lo])) = .ok .tEndStart ∧ step (skipping .skipHigh 1 [lo]) = .next t) ∧
    (∃ t, decode (fetchWord (dataEnd 6 true 0 [hi])) = .ok .tEndData ∧ step (dataEnd 6 true 0 [hi]) = .next t) ∧
    (∃ t, decode (fetchWord (dataEnd 7 true 0 [hi])) = .ok .tEndData ∧ step (dataEnd 7 true 0 [hi]) = .next t) ∧
    (∃ t, decode (fetchWord (stopEnd 5 [hi])) = .ok .tEndStop ∧ step (stopEnd 5 [hi]) = .next t) ∧
    (∃ t, decode (fetchWord (stopEnd 6 [hi])) = .ok .tEndStop ∧ step (stopEnd 6 [hi]) = .next t) ∧
    (∀ s ∈ [skipping .skipHigh 1 [lo], dataEnd 6 true 0 [hi], dataEnd 7 true 0 [hi], stopEnd 5 [hi], stopEnd 6 [hi],
      State.reset], Hardwired s) ∧
    ∃ t, decode (fetchWord State.reset) = .ok .tIdle ∧ step State.reset = .next t :=
  ⟨⟨_, rfl, rfl⟩, ⟨_, rfl, rfl⟩, ⟨_, rfl, rfl⟩, ⟨_, rfl, rfl⟩, ⟨_, rfl, rfl⟩, by decide, _, rfl, rfl⟩

theorem witness_EmittedRecordsLieBehindThePosition :
    ∃ t, BlockInv (stopEnd 6 [hi]) ∧ step (stopEnd 6 [hi]) = .next t ∧
      ⟨60, 3596, .telegram, .telegram, 0⟩ ∈ newRecords (stopEnd 6 [hi]) t :=
  ⟨_, witness_inv_stop, rfl, by decide⟩

theorem witness_SkippedLevelsAreIgnored :
    Hardwired (skipping .skipLow 1 []) ∧ Hardwired (skipping .skipHigh 36 []) ∧ (skipping .skipLow 1 []).ctl = .skipLow ∧
      (skipping .skipHigh 36 []).ctl = .skipHigh ∧ hi.symbol = .sample true ∧ lo.symbol = .sample false :=
  ⟨⟨rfl, rfl⟩, ⟨rfl, rfl⟩, rfl, rfl, rfl, rfl⟩

theorem witness_HaltLastsUntilReset :
    ({ stopEnd 6 [hi, eos, none_, lo, rst] with ctl := .halt } : State).request = none ∧ (stopEnd 6 []).tg.length ≤ 6 ∧
      ∀ p ∈ ({ stopEnd 6 [hi, eos, none_, lo, rst] with ctl := .halt } : State).inp.take 4, p.rst = false := by decide

theorem witness_HaltLastsUntilReset_request :
    (∃ t, step { stopEnd 6 [rst] with ctl := .halt } = .next t ∧ (stopEnd 6 [rst]).port.rst = true) ∧
      (∃ t, step (asking (encode .reset) { stopEnd 6 [] with ctl := .halt }) = .next t) ∧
      ∃ t, step (asking (encode .pos) { stopEnd 6 [] with ctl := .halt }) = .next t := ⟨⟨_, rfl, rfl⟩, ⟨_, rfl⟩, _, rfl⟩

theorem witness_IdleStepsChangeNothing :
    ∃ t u, BlockInv (dataEnd 7 true 0 [hi]) ∧
      core.run 3 { dataEnd 7 true 0 [hi] with inp := [none_, hi, none_] } = .next t ∧
      ([none_, hi, none_].filter fun p => decide (p.symbol ≠ .idle)) = [hi] ∧
      core.run 1 { dataEnd 7 true 0 [hi] with inp := [hi] } = .next u :=
  ⟨_, _, witness_inv_data, rfl, rfl, rfl⟩

theorem witness_ResetTransitionClearsRegisters :
    Hardwired (stopEnd 6 [rst]) ∧ (stopEnd 6 [rst]).inp = [rst] ∧ rst.rst = true := ⟨⟨rfl, rfl⟩, rfl, rfl⟩

theorem witness_HaltedTransitionChangesNothing :
    Presents { stopEnd 6 [eos] with ctl := .halt } eos [] ∧ ({ stopEnd 6 [eos] with ctl := .halt } : State).ctl = .halt ∧
      eos.rst = false := ⟨⟨⟨rfl, rfl⟩, rfl, rfl⟩, rfl, rfl⟩

theorem witness_EosTransitionHalts :
    Presents (stopEnd 6 [⟨false, true, true, true⟩]) ⟨false, true, true, true⟩ [] ∧
      (stopEnd 6 [⟨false, true, true, true⟩]).ctl ≠ .halt := ⟨⟨⟨rfl, rfl⟩, rfl, rfl⟩, by decide⟩

theorem witness_IdleTransitionChangesNothing :
    Presents (stopEnd 6 [⟨false, false, false, true⟩]) ⟨false, false, false, true⟩ [] ∧
      (stopEnd 6 []).ctl ≠ .halt ∧ (⟨false, false, false, true⟩ : PortIn).symbol = .idle :=
  ⟨⟨⟨rfl, rfl⟩, rfl, rfl⟩, by decide, rfl⟩

theorem witness_HuntMissConsumesHighSample :
    Presents (hunting ((entries 0).take 6) [hi]) hi [] ∧ (hunting ((entries 0).take 6) [hi]).ctl = .hunt ∧
      hi.symbol = .sample true := ⟨⟨⟨rfl, rfl⟩, rfl, rfl⟩, rfl, rfl⟩

theorem witness_HuntHitOpensStartCell :
    Presents (hunting ((entries 0).take 6) [lo]) lo [] ∧ (hunting ((entries 0).take 6) [lo]).ctl = .hunt ∧
      lo.symbol = .sample false := ⟨⟨⟨rfl, rfl⟩, rfl, rfl⟩, rfl, rfl⟩

theorem witness_FirstTickSamplesCellValue :
    Presents { dataEnd 0 true 0 [lo] with pos := 60, ctl := .first, skipCnt := 0 } lo [] ∧
      ({ dataEnd 0 true 0 [lo] with pos := 60, ctl := .first, skipCnt := 0 } : State).ctl = .first ∧
      lo.symbol = .sample false := ⟨⟨⟨rfl, rfl⟩, rfl, rfl⟩, rfl, rfl⟩

theorem witness_LowStepCountsDown :
    ∀ n ∈ [2, 15], Presents (skipping .skipLow n [lo]) lo [] ∧ (skipping .skipLow n [lo]).ctl = .skipLow ∧
      1 < (skipping .skipLow n [lo]).skipCnt.toNat ∧ lo.symbol = .sample false := by
  intro n hn
  fin_cases hn <;> exact ⟨⟨⟨rfl, rfl⟩, rfl, rfl⟩, rfl, by decide, rfl⟩

theorem witness_LowLastBeginsHighSkip :
    Presents (skipping .skipLow 1 [hi]) hi [] ∧ (skipping .skipLow 1 [hi]).ctl = .skipLow ∧
      (skipping .skipLow 1 [hi]).skipCnt = 1 ∧ hi.symbol = .sample true := ⟨⟨⟨rfl, rfl⟩, rfl, rfl⟩, rfl, rfl, rfl⟩

theorem witness_HighStepCountsDown :
    ∀ n ∈ [2, 36], Presents (skipping .skipHigh n [lo]) lo [] ∧ (skipping .skipHigh n [lo]).ctl = .skipHigh ∧
      1 < (skipping .skipHigh n [lo]).skipCnt.toNat ∧ lo.symbol = .sample false := by
  intro n hn
  fin_cases hn <;> exact ⟨⟨⟨rfl, rfl⟩, rfl, rfl⟩, rfl, by decide, rfl⟩

theorem witness_EndStartBeginsByte :
    Presents (skipping .skipHigh 1 [hi]) hi [] ∧ (skipping .skipHigh 1 [hi]).ctl = .skipHigh ∧
      (skipping .skipHigh 1 [hi]).skipCnt = 1 ∧ (skipping .skipHigh 1 [hi]).role = .start ∧ hi.symbol = .sample true :=
  ⟨⟨⟨rfl, rfl⟩, rfl, rfl⟩, rfl, rfl, rfl, rfl⟩

theorem witness_EndDataMergesBit :
    (∀ i ∈ [6, 7], Presents (dataEnd i true 0 [hi]) hi [] ∧ (dataEnd i true 0 [hi]).ctl = .skipHigh ∧
      (dataEnd i true 0 [hi]).skipCnt = 1 ∧ (dataEnd i true 0 [hi]).role = .data ∧ hi.symbol = .sample true) ∧
    (dataEnd 6 true 0 [hi]).bitIdx + 1 ≠ 8 ∧ (dataEnd 7 true 0 [hi]).bitIdx + 1 = 8 := by
  refine ⟨?_, by decide, rfl⟩
  intro n hn
  fin_cases hn <;> exact ⟨⟨⟨rfl, rfl⟩, rfl, rfl⟩, rfl, rfl, rfl, rfl⟩

theorem witness_EndStopAppendsAndFlushesAtSeven :
    (∀ n ∈ [0, 5, 6], Presents (stopEnd n [lo]) lo [] ∧ (stopEnd n [lo]).ctl = .skipHigh ∧
      (stopEnd n [lo]).skipCnt = 1 ∧ (stopEnd n [lo]).role = .stop ∧ lo.symbol = .sample false) ∧
    (stopEnd 5 [lo]).tg.length < 6 ∧
    (stopEnd 6 [lo]).tg = [⟨1, 60, 476⟩, ⟨2, 580, 996⟩, ⟨3, 1100, 1516⟩, ⟨4, 1620, 2036⟩, ⟨5, 2140, 2556⟩,
      ⟨0, 2660, 3076⟩] := by
  refine ⟨?_, by decide, rfl⟩
  intro n hn
  fin_cases hn <;> exact ⟨⟨⟨rfl, rfl⟩, rfl, rfl⟩, rfl, rfl, rfl, rfl⟩

/-- Two samples of the other level with a step without a symbol between them; and none at all. -/
theorem witness_WaitlvlOutcomes :
    Carries [hi, none_, hi] (List.replicate 2 (!false)) ∧ Carries [] (List.replicate 0 (!false)) ∧
      lo.symbol = .sample false ∧ eos.symbol = .eos ∧ rst.symbol = .reset ∧ (withInput []).ctl ≠ .halt :=
  ⟨⟨rfl, rfl⟩, ⟨rfl, rfl⟩, rfl, rfl, rfl, by decide⟩

theorem witness_SampleOutcomes :
    Carries [none_] [] ∧ hi.symbol = .sample true ∧ eos.symbol = .eos ∧ rst.symbol = .reset ∧
      ∀ r ∈ [[hi], [eos], [], [rst]], (withInput ([none_] ++ r)).inp = [none_] ++ r ∧
        (withInput ([none_] ++ r)).ctl ≠ .halt :=
  ⟨⟨rfl, rfl⟩, rfl, rfl, rfl, fun _ _ => ⟨rfl, by simp [withInput, State.reset]⟩⟩

theorem witness_SkipOutcomes :
    (Delivers (ahead (lowTicks 16) State.reset) (lowTicks 16) [] ∧ (lowTicks 16).length = 16) ∧
      (Delivers (ahead (lowTicks 36) State.reset) (lowTicks 36) [] ∧ (lowTicks 36).length = 36) ∧
      (Carries (onLine (lowTicks 15)) (lowTicks 15) ∧ (lowTicks 15).length < 16) ∧
      Carries (ahead [] State.reset).inp [] ∧ eos.symbol = .eos ∧ rst.symbol = .reset :=
  ⟨⟨delivers_onLine (by decide) rfl, rfl⟩, ⟨delivers_onLine (by decide) rfl, rfl⟩, ⟨carries_onLine _, by decide⟩,
    ⟨rfl, rfl⟩, rfl, rfl⟩

/-- A WAITLVL that finds no low level, a LOOP that stops inside its first skip, and the two requests that do not wait. -/
theorem witness_SuspendedOperationResumes :
    (∃ t, exec (.waitlvl false) { State.reset with inp := [hi] } = .next t ∧ t.result = .suspended) ∧
    (∃ t, exec .loop { State.reset with inp := [hi, lo, none_, hi] } = .next t ∧ t.result = .suspended) ∧
      State.reset.requestAvailable = false ∧ State.reset.ctl ≠ .halt ∧ needsSamples .loop = true ∧
      needsSamples (.waitlvl false) = true ∧ decode (encode .pos) = .ok .pos ∧ decode (encode .reset) = .ok .reset :=
  ⟨⟨_, rfl, rfl⟩, ⟨_, rfl, rfl⟩, rfl, by decide, rfl, rfl, rfl, rfl⟩

theorem witness_DemodStartReadsStartCell :
    Delivers (ahead (highTicks 8 ++ zeroCell) State.reset) (List.replicate 8 true ++ false :: (zeroCell.drop 1)) [] ∧
      (zeroCell.drop 1).length = 51 ∧ (ahead (highTicks 8 ++ zeroCell) State.reset).ctl ≠ .halt :=
  ⟨delivers_onLine (by decide) rfl, rfl, by decide⟩

theorem witness_DemodDataReadsDataCell :
    Delivers (ahead oneCell State.reset) (true :: highTicks 51) [] ∧ (highTicks 51).length = 51 ∧
      (ahead oneCell State.reset).ctl ≠ .halt := ⟨delivers_onLine (by decide) rfl, rfl, by decide⟩

theorem witness_StopCellIsReadNotChecked :
    Delivers (ahead (lowTicks 52) State.reset) (false :: lowTicks 51) [] ∧ (lowTicks 51).length = 51 ∧
      (ahead (lowTicks 52) State.reset).ctl ≠ .halt := ⟨delivers_onLine (by decide) rfl, rfl, by decide⟩

theorem witness_UnfinishedCellEmitsNothing :
    ((withInput (onLine (List.replicate 3 true ++ lowTicks 51) ++ eos :: [hi])).ctl ≠ .halt ∧
      Carries (onLine (List.replicate 3 true ++ lowTicks 51)) (List.replicate 3 true ++ lowTicks 51) ∧
      (lowTicks 51).length < 52 ∧ (lowTicks 51).head? = some false) ∧
    Carries (onLine (List.replicate 0 true ++ highTicks 51)) (List.replicate 0 true ++ highTicks 51) ∧
    Carries [] (List.replicate 0 true ++ []) ∧ eos.symbol = .eos :=
  ⟨⟨by simp [withInput, State.reset], carries_onLine _, by decide, rfl⟩, carries_onLine _, ⟨rfl, rfl⟩, rfl⟩

theorem witness_DecodeByteReadsFrame :
    (lowTicks 520).length = 520 ∧ (lowTicks 520).head? = some false ∧
      (ahead (List.replicate 4 true ++ lowTicks 520) State.reset).ctl ≠ .halt ∧
      Delivers (ahead (List.replicate 4 true ++ lowTicks 520) State.reset) (List.replicate 4 true ++ lowTicks 520) [] :=
  ⟨List.length_replicate, rfl, by simp [ahead, State.reset], delivers_onLine (by simp) (by simp [ahead])⟩

theorem witness_CutFrameIsNotAppended :
    ((lowTicks 519).length < 520 ∧ (lowTicks 519).head? = some false ∧
      (withInput (onLine (List.replicate 4 true ++ lowTicks 519) ++ eos :: [lo])).ctl ≠ .halt ∧
      (withInput (onLine (List.replicate 4 true ++ lowTicks 519) ++ eos :: [lo])).tg.length < 7 ∧
      Carries (onLine (List.replicate 4 true ++ lowTicks 519)) (List.replicate 4 true ++ lowTicks 519)) ∧
    Carries (onLine (List.replicate 4 true ++ [])) (List.replicate 4 true ++ []) ∧ eos.symbol = .eos :=
  ⟨⟨by rw [lowTicks, List.length_replicate]; decide, rfl, by simp [withInput, State.reset],
    by simp [withInput, State.reset], carries_onLine _⟩, carries_onLine _, rfl⟩

/-- The entries of a telegram whose checksum is right, and of one whose checksum is wrong. -/
theorem witness_Holds7 :
    Holds7 (hunting (entries 0) []) ⟨1, 60, 476⟩ ⟨2, 580, 996⟩ ⟨3, 1100, 1516⟩ ⟨4, 1620, 2036⟩ ⟨5, 2140, 2556⟩
        ⟨0, 2660, 3076⟩ ⟨7, 3180, 3596⟩ ∧
      Holds7 (hunting (entries 6) []) ⟨1, 60, 476⟩ ⟨2, 580, 996⟩ ⟨3, 1100, 1516⟩ ⟨4, 1620, 2036⟩ ⟨5, 2140, 2556⟩
        ⟨6, 2660, 3076⟩ ⟨7, 3180, 3596⟩ := ⟨rfl, rfl⟩

theorem witness_LoopFlushesThenDecodesThenAppends :
    (lowTicks 520).length = 520 ∧ (lowTicks 520).head? = some false ∧
    (Delivers (ahead (lowTicks 520) (hunting ((entries 0).take 6) [])) (List.replicate 0 true ++ lowTicks 520) [] ∧
      (ahead (lowTicks 520) (hunting ((entries 0).take 6) [])).ctl ≠ .halt ∧
      (ahead (lowTicks 520) (hunting ((entries 0).take 6) [])).tg.length < 7) ∧
    Delivers (ahead (lowTicks 520) (hunting (entries 0) [])) (List.replicate 0 true ++ lowTicks 520) [] ∧
      (ahead (lowTicks 520) (hunting (entries 0) [])).ctl ≠ .halt ∧
      Holds7 (ahead (lowTicks 520) (hunting (entries 0) [])) ⟨1, 60, 476⟩ ⟨2, 580, 996⟩ ⟨3, 1100, 1516⟩
        ⟨4, 1620, 2036⟩ ⟨5, 2140, 2556⟩ ⟨0, 2660, 3076⟩ ⟨7, 3180, 3596⟩ :=
  ⟨List.length_replicate, rfl,
    ⟨delivers_onLine (List.cons_ne_nil false (lowTicks 519)) (by simp [ahead]),
      by simp [ahead, hunting, State.reset], by simp [ahead, hunting, entries]⟩,
    delivers_onLine (List.cons_ne_nil false (lowTicks 519)) (by simp [ahead]),
    by simp [ahead, hunting, State.reset], rfl⟩

theorem witness_FlushEmitsEightRecordsAndClears :
    (hunting (entries 0) []).ctl ≠ .halt ∧ (hunting ((entries 0).take 6) []).tg.length ≠ 7 := by decide

theorem witness_ChecksumIsXorOfFourBytes :
    (hunting ((entries 0).take 5) []).ctl ≠ .halt ∧
      (hunting ((entries 0).take 5) []).tg = ⟨1, 60, 476⟩ :: ⟨2, 580, 996⟩ :: ⟨3, 1100, 1516⟩ :: ⟨4, 1620, 2036⟩ ::
        ⟨5, 2140, 2556⟩ :: [] ∧
      (hunting ((entries 0).take 4) []).ctl ≠ .halt ∧ (hunting ((entries 0).take 4) []).tg.length < 5 := by decide

theorem witness_ChecksumDetectsSingleBitFlips : (hunting (entries 0) []).crcOk = true := rfl

theorem witness_AppendStoresEntry :
    (hunting ((entries 0).take 6) []).ctl ≠ .halt ∧ (hunting ((entries 0).take 6) []).tg.length < 7 := by decide

theorem witness_StoringAnEighthByteFaults :
    7 ≤ (hunting (entries 0) []).tg.length ∧ (hunting (entries 0) []).ctl ≠ .halt := by decide

theorem witness_BuffersNeverHoldMoreThanSeven :
    ∃ t, bufferWf (hunting ((entries 0).take 6) []).tg = true ∧
      exec (.append 7 3180 3596) (hunting ((entries 0).take 6) []) = .next t ∧
      ∃ u, step (hunting ((entries 0).take 6) [hi]) = .next u := ⟨_, rfl, rfl, _, rfl⟩

theorem witness_EmitAppendsRecord : (stopEnd 6 []).ctl ≠ .halt := by decide

theorem witness_BitAndValueRecordKinds : (dataEnd 3 true 1 []).ctl ≠ .halt := by decide

theorem witness_TelegramAndFieldRecordKinds :
    (hunting (entries 0) []).ctl ≠ .halt ∧ (hunting (entries 0) []).tg = entries 0 := ⟨by decide, rfl⟩

theorem witness_CrcRecordKinds :
    goodSum ⟨2, 580, 996⟩ ⟨3, 1100, 1516⟩ ⟨4, 1620, 2036⟩ ⟨5, 2140, 2556⟩ ⟨0, 2660, 3076⟩ = true ∧
      goodSum ⟨2, 580, 996⟩ ⟨3, 1100, 1516⟩ ⟨4, 1620, 2036⟩ ⟨5, 2140, 2556⟩ ⟨6, 2660, 3076⟩ = false ∧
      (hunting (entries 6) []).ctl ≠ .halt := by decide

/-- With nothing held every entry is invalid; with six, the seventh. -/
theorem witness_BufferRecordKindsRunWithAnyBuffer :
    State.reset.ctl ≠ .halt ∧ (hunting ((entries 0).take 6) []).ctl ≠ .halt := by decide

theorem witness_RecordWordFields :
    (⟨60, 2 ^ 16 - 1, .value, .byteHex, 0xff⟩ : Record).ss < 2 ^ 16 ∧
      (⟨60, 2 ^ 16 - 1, .value, .byteHex, 0xff⟩ : Record).es < 2 ^ 16 := by decide

theorem witness_HaltHoldsOperations :
    ({ stopEnd 6 [hi] with ctl := .halt } : State).ctl = .halt ∧ heldByHalt .loop = true := ⟨rfl, rfl⟩

theorem witness_TickMachineReadsFrameIn520Steps :
    (lowTicks 520).length = 520 ∧ (lowTicks 520).head? = some false ∧
      (∀ n, n ≤ 6 → BlockInv (hunting ((entries 0).take n) (onLine (lowTicks 520) ++ [eos])) ∧
        (hunting ((entries 0).take n) (onLine (lowTicks 520) ++ [eos])).ctl = .hunt ∧
        (hunting ((entries 0).take n) (onLine (lowTicks 520) ++ [eos])).inp = onLine (lowTicks 520) ++ [eos]) ∧
      (hunting ((entries 0).take 5) []).tg.length < 6 ∧
      (hunting ((entries 0).take 6) []).tg = [⟨1, 60, 476⟩, ⟨2, 580, 996⟩, ⟨3, 1100, 1516⟩, ⟨4, 1620, 2036⟩,
        ⟨5, 2140, 2556⟩, ⟨0, 2660, 3076⟩] :=
  ⟨List.length_replicate, rfl, fun n h => ⟨inv_hunting n _ h, rfl, rfl⟩, by decide, rfl⟩

theorem witness_TickLevelEqualsOperationLevel :
    BlockInv (hunting ((entries 0).take 6) (streamThenEos (byteWave 7 ++ highTicks 8))) ∧
      (hunting ((entries 0).take 6) (streamThenEos (byteWave 7 ++ highTicks 8))).ctl = .hunt ∧
      (hunting ((entries 0).take 6) (streamThenEos (byteWave 7 ++ highTicks 8))).inp =
        streamThenEos (byteWave 7 ++ highTicks 8) := ⟨inv_hunting 6 _ (by decide), rfl, rfl⟩

theorem witness_StreamEndInsideFrame :
    (lowTicks 520).length = 520 ∧ (lowTicks 520).head? = some false ∧ (hunting ((entries 0).take 5) []).tg.length < 6 ∧
      (hunting ((entries 0).take 6) []).tg = [⟨1, 60, 476⟩, ⟨2, 580, 996⟩, ⟨3, 1100, 1516⟩, ⟨4, 1620, 2036⟩,
        ⟨5, 2140, 2556⟩, ⟨0, 2660, 3076⟩] ∧
      ∀ n, n ≤ 6 → ∀ d ∈ [1, 519, 520],
        BlockInv (hunting ((entries 0).take n) (streamThenEos ((lowTicks 520).take d))) ∧
        (hunting ((entries 0).take n) (streamThenEos ((lowTicks 520).take d))).ctl = .hunt ∧
        (hunting ((entries 0).take n) (streamThenEos ((lowTicks 520).take d))).inp =
          streamThenEos ((lowTicks 520).take d) :=
  ⟨List.length_replicate, rfl, by decide, rfl, fun n h _ _ => ⟨inv_hunting n _ h, rfl, rfl⟩⟩

theorem witness_StuckHighLineDecodesNothing :
    BlockInv (hunting ((entries 0).take 3) (onLine (highTicks 1000))) ∧
      (hunting ((entries 0).take 3) (onLine (highTicks 1000))).ctl = .hunt ∧
      (hunting ((entries 0).take 3) (onLine (highTicks 1000))).inp = onLine (highTicks 1000) :=
  ⟨inv_hunting 3 _ (by decide), rfl, rfl⟩

theorem witness_StuckLowLineDecodesZeroTelegrams :
    BlockInv (hunting [] (onLine (lowTicks 3640))) ∧ (hunting [] (onLine (lowTicks 3640))).ctl = .hunt ∧
      (hunting [] (onLine (lowTicks 3640))).tg = [] ∧
      (hunting [] (onLine (lowTicks 3640))).inp = onLine (lowTicks 3640) :=
  ⟨inv_hunting 0 _ (by decide), rfl, rfl, rfl⟩

end Sys2Proof.Tests
end

/-! SUPPORT. Proofs, first part: laws of the selector, of HALT, and of sequences of actions. -/

namespace Sys2Proof.Machine

open Sys2Proof Sys2Proof.Safety

/-! ### The selected transition (R83) -/

/-- R161 to R173: the transition that R83 selects, by the symbol presented and the registers it examines. -/
def transitionOf (s : State) (p : PortIn) : Instr :=
  match p.symbol, s.ctl with
  | .reset, _ => .tReset
  | _, .halt => .tHalted
  | .eos, _ => .tEos
  | .idle, _ => .tIdle
  | .sample b, .hunt => if b then .tHuntMiss else .tHuntHit
  | .sample b, .first => .tFirst b
  | .sample _, .skipLow => if s.last then .tLowLast else .tLowStep
  | .sample _, .skipHigh =>
    if s.last then match s.role with | .start => .tEndStart | .data => .tEndData | .stop => .tEndStop else .tHighStep

/-- Every selector decodes (R83). The decoder searches a table, so the fact is a finite one: each code that the ten bits can
form is searched for. -/
theorem decode_selectorWord (s : State) (p : PortIn) : decode (selectorWord s p) = .ok (transitionOf s p) := by
  obtain ⟨rst, eos, valid, pin⟩ := p
  unfold selectorWord selectorCode transitionOf
  generalize s.last = last
  generalize s.ctl = ctl
  generalize s.role = role
  cases rst <;> cases eos <;> cases valid <;> cases ctl <;> cases role <;> cases last <;> cases pin <;> rfl

theorem isTransition_transitionOf (s : State) (p : PortIn) : isTransition (transitionOf s p) = true := by
  unfold transitionOf
  split
  case h_5 => split <;> rfl
  case h_7 => split <;> rfl
  case h_8 =>
    split
    · cases s.role <;> rfl
    · rfl
  all_goals rfl

/-- A step of the hardwired block performs the selected transition, once the symbol has been taken away. -/
theorem step_hardwired {s : State} (hw : Hardwired s) (h : s.selectable = true) :
    step s = exec (transitionOf s s.port) (s.withInp s.inp.tail) := by
  obtain ⟨hr, hp⟩ := hw
  simp [step, resumption_none hp, undefinedSelector_false h, fetchWord_tick hr, passFetch_tick hr,
    decode_selectorWord, hr]

/-- With a free buffer entry no transition faults; T.END.STOP alone needs one (R134). -/
theorem exec_transition_next {i : Instr} {s : State} (hi : isTransition i = true) (h : s.tg.length < 7) :
    ∃ t, exec i s = .next t := by
  cases i with
  | tEndStop =>
    have hroom : (lastTick .stop s.cellVal s).tg.length < 7 := h
    refine ⟨flushIfPending ((lastTick .stop s.cellVal s).store (byteEntry s)), ?_⟩
    simp only [exec, execTEndStop, appendEntry_eq_ok.mpr ⟨hroom, rfl⟩, storedNext]
  | tReset | tHalted | tEos | tIdle | tHuntMiss | tHuntHit | tFirst | tLowStep | tLowLast | tHighStep | tEndStart
  | tEndData => exact ⟨_, rfl⟩
  | _ => cases hi

/-! ### Operations and HALT -/

theorem emitOne_halted {r : State → Record} {s : State} (h : s.ctl = .halt) :
    emitOne r s = .next (s.withResult .notPerformed) := operation_halted h

theorem emitFromBuffers_halted {k : Nat} {r : State → Record} {s : State} (h : s.ctl = .halt) :
    emitFromBuffers k r s = .next (s.withResult .notPerformed) := operation_halted h

theorem emitCrc_halted {ok : Bool} {lbl : Label} {s : State} (h : s.ctl = .halt) :
    emitCrc ok lbl s = .next (s.withResult .notPerformed) := operation_halted h

/-- R11, R190: each operation but POS and RESET is guarded against HALT. -/
theorem exec_halted {i : Instr} {s : State} (h : s.ctl = .halt) (hi : heldByHalt i = true) :
    exec i s = .next (s.withResult .notPerformed) := by
  cases i with
  | waitlvl | sample | skip | demodStart | demodData | demodStop | expectStop | decodeByte | loop =>
    exact operation_halted h
  | checksum => unfold exec execChecksum; exact operation_halted h
  | flush => unfold exec execFlush; exact operation_halted h
  | append => unfold exec execAppend; exact operation_halted h
  | emit => unfold exec execEmit; exact emitOne_halted h
  | emitStartBit | emitDataBit | emitStopBit | emitValue => exact emitOne_halted h
  | emitTelegram | emitInit | emitAddr | emitField2 | emitRequest | emitField4 | emitTerm =>
    exact emitFromBuffers_halted h
  | emitGoodCrc | emitBadCrc => exact emitCrc_halted h
  | pos | reset | tReset | tHalted | tEos | tIdle | tHuntMiss | tHuntHit | tFirst | tLowStep | tLowLast | tHighStep
  | tEndStart | tEndData | tEndStop => cases hi

/-! ### What a sequence of actions does not read (log 4, log 18) -/

/-- The state with other values in the model's record of the suspended operation and of the last outcome. -/
def State.withRecord (s : State) (p : Option Pending) (x : Result) : State := (s.withPending p).withResult x

/-- The outcome of one action that began with such other values: EndOfStream and a reset clear `pending` themselves. -/
def Run.withRecord (p : Option Pending) (x : Result) : Run → Run
  | .done t => .done (t.withRecord p x)
  | .suspended b t => .suspended b (t.withRecord p x)
  | .ended t => .ended (t.withResult x)
  | .restarted t => .restarted (t.withResult x)
  | .stuck f => .stuck f

theorem waitFrom_withRecord (l : Level) (p : Option Pending) (x : Result) (q : List PortIn) (s : State) :
    waitFrom l q (s.withRecord p x) = (waitFrom l q s).withRecord p x := by
  induction q generalizing s with
  | nil => rfl
  | cons y q ih =>
    simp only [waitFrom]
    cases y.symbol with
    | reset => rfl
    | eos => rfl
    | idle => exact ih s
    | sample b =>
      dsimp only
      split_ifs
      · rfl
      · exact ih s.advance

theorem sampleFrom_withRecord (p : Option Pending) (x : Result) (q : List PortIn) (s : State) :
    sampleFrom q (s.withRecord p x) = (sampleFrom q s).withRecord p x := by
  induction q generalizing s with
  | nil => rfl
  | cons y q ih =>
    simp only [sampleFrom]
    cases y.symbol with
    | idle => exact ih s
    | _ => rfl

theorem skipFrom_withRecord (p : Option Pending) (x : Result) (q : List PortIn) (n : Nat) (s : State) :
    skipFrom q n (s.withRecord p x) = (skipFrom q n s).withRecord p x := by
  induction q generalizing n s with
  | nil => cases n <;> rfl
  | cons y q ih =>
    cases n with
    | zero => rfl
    | succ n =>
      simp only [skipFrom]
      cases y.symbol with
      | reset => rfl
      | eos => rfl
      | idle => exact ih (n + 1) s
      | sample b => exact ih n s.advance

/-- R131: the flush at the head of LOOP, with the condition at each of the two fields it writes. -/
theorem flushIfPending_eq (s : State) : flushIfPending s = { s with
    sink := if s.tg.length = 7 then s.sink ++ flushRecords s else s.sink
    tg := if s.tg.length = 7 then [] else s.tg } := by
  by_cases h : s.tg.length = 7
  · rw [flushIfPending_of_eq h, flushTelegram_eq, if_pos h, if_pos h]
  · rw [flushIfPending_of_ne h, if_neg h, if_neg h]

/-- R134: the byte's entry is stored where there is room. -/
theorem perform_append_eq (s : State) :
    perform .append s = if s.tg.length < 7 then .done (s.store (byteEntry s)) else .stuck .bufferFull := by
  by_cases h : s.tg.length < 7
  · simp only [perform, appendEntry_eq_ok.mpr ⟨h, rfl⟩, if_pos h]
  · simp only [perform, appendEntry_full (Nat.not_lt.mp h), if_neg h]

theorem perform_withRecord (a : Action) (p : Option Pending) (x : Result) (s : State) :
    perform a (s.withRecord p x) = (perform a s).withRecord p x := by
  cases a with
  | wait l => exact waitFrom_withRecord l p x s.inp s
  | sample => exact sampleFrom_withRecord p x s.inp s
  | skip n => exact skipFrom_withRecord p x s.inp n s
  | flushIfPending =>
    simp only [perform, flushIfPending_eq]
    rfl
  | append =>
    rw [perform_append_eq, perform_append_eq, apply_ite (Run.withRecord p x)]
    rfl
  | _ => rfl

/-- A sequence of actions overwrites both records and reads neither. -/
theorem runActions_withRecord (r : Returns) (k : List Action) (p : Option Pending) (x : Result) (s : State) :
    runActions r k (s.withRecord p x) = runActions r k s := by
  induction k generalizing s with
  | nil => cases r <;> rfl
  | cons a k ih =>
    simp only [runActions, perform_withRecord]
    cases perform a s with
    | done t => exact ih t
    | _ => rfl

/-! ### What a cursor operation takes from its state: the input it is given -/

theorem waitFrom_withInp (l : Level) (q x : List PortIn) (s : State) : waitFrom l q (s.withInp x) = waitFrom l q s := by
  induction q generalizing s with
  | nil => rfl
  | cons y q ih =>
    simp only [waitFrom]
    cases y.symbol with
    | reset => rfl
    | eos => rfl
    | idle => exact ih s
    | sample b =>
      dsimp only
      split_ifs
      · rfl
      · exact ih s.advance

theorem sampleFrom_withInp (q x : List PortIn) (s : State) : sampleFrom q (s.withInp x) = sampleFrom q s := by
  induction q generalizing s with
  | nil => rfl
  | cons y q ih =>
    simp only [sampleFrom]
    cases y.symbol with
    | idle => exact ih s
    | _ => rfl

/-- SKIP writes its count and does not read the one it finds (R102). -/
theorem skipFrom_withInp_withSkip (q x : List PortIn) (n : Nat) (c : BitVec 6) (s : State) :
    skipFrom q n ((s.withInp x).withSkip c) = skipFrom q n s := by
  induction q generalizing n s with
  | nil => cases n <;> rfl
  | cons y q ih =>
    cases n with
    | zero => rfl
    | succ n =>
      simp only [skipFrom]
      cases y.symbol with
      | reset => rfl
      | eos => rfl
      | idle => exact ih (n + 1) s
      | sample b => exact ih n s.advance

end Sys2Proof.Machine

/-! SUPPORT. Proofs, second part: a suspended operation and the input that comes later (R104). -/

namespace Sys2Proof.Machine

open Sys2Proof Sys2Proof.Safety

/-! ### One action over an input that comes in two parts -/

/-- What becomes of an action performed over the first part when the part `r` follows: a done one leaves `r` untaken, a
suspended one goes on with it. -/
def Run.deliver (r : List PortIn) : Run → Run
  | .done t => .done (t.withInp (t.inp ++ r))
  | .suspended b t => perform b (t.withInp r)
  | .ended t => .ended (t.withInp (t.inp ++ r))
  | .restarted t => .restarted (t.withInp (t.inp ++ r))
  | .stuck f => .stuck f

theorem waitFrom_append (l : Level) (q r : List PortIn) (s : State) :
    waitFrom l (q ++ r) s = (waitFrom l q s).deliver r := by
  induction q generalizing s with
  | nil => exact (waitFrom_withInp l r r s).symm
  | cons y q ih =>
    simp only [List.cons_append, waitFrom]
    cases y.symbol with
    | reset => rfl
    | eos => rfl
    | idle => exact ih s
    | sample b =>
      dsimp only
      split_ifs
      · rfl
      · exact ih s.advance

theorem sampleFrom_append (q r : List PortIn) (s : State) : sampleFrom (q ++ r) s = (sampleFrom q s).deliver r := by
  induction q generalizing s with
  | nil => exact (sampleFrom_withInp r r s).symm
  | cons y q ih =>
    simp only [List.cons_append, sampleFrom]
    cases y.symbol with
    | idle => exact ih s
    | _ => rfl

theorem skipFrom_append (q r : List PortIn) (n : Nat) (s : State) :
    skipFrom (q ++ r) n s = (skipFrom q n s).deliver r := by
  induction q generalizing n s with
  | nil =>
    cases n with
    | zero => cases r <;> rfl
    | succ n => exact (skipFrom_withInp_withSkip r r (n + 1) _ s).symm
  | cons y q ih =>
    cases n with
    | zero => rfl
    | succ n =>
      simp only [List.cons_append, skipFrom]
      cases y.symbol with
      | reset => rfl
      | eos => rfl
      | idle => exact ih (n + 1) s
      | sample b => exact ih n s.advance

/-- An action performed over an input in two parts. The level that R111 keeps is read off the current sample, so that one
must be there. -/
theorem perform_append {a : Action} {s : State} (r : List PortIn) (h : a = .openLevel → s.inp ≠ []) :
    perform a (s.withInp (s.inp ++ r)) = (perform a s).deliver r := by
  cases a with
  | wait l => exact (waitFrom_withInp l _ _ s).trans (waitFrom_append l s.inp r s)
  | sample => exact (sampleFrom_withInp _ _ s).trans (sampleFrom_append s.inp r s)
  | skip n =>
    exact (skipFrom_withInp_withSkip (s.inp ++ r) (s.inp ++ r) n s.skipCnt s).trans (skipFrom_append s.inp r n s)
  | openLevel =>
    have hport : (s.withInp (s.inp ++ r)).port = s.port := by
      obtain ⟨y, q, hq⟩ := List.exists_cons_of_ne_nil (h rfl)
      simp [State.port, State.withInp, hq]
    simp only [perform, hport]
    rfl
  | flushIfPending =>
    simp only [perform, flushIfPending_eq]
    rfl
  | append =>
    rw [perform_append_eq, perform_append_eq, apply_ite (Run.deliver r)]
    rfl
  | _ => rfl

/-! ### What the actions of an operation keep as long as it has not ended -/

/-- No level is read but behind the SAMPLE that found it (R111), and no action enters HALT, which EndOfStream alone does
(R188). The first argument says that the action before was SAMPLE. -/
def wellSequenced : Bool → List Action → Bool
  | _, [] => true
  | _, .sample :: k => wellSequenced true k
  | sampled, .openLevel :: k => sampled && wellSequenced false k
  | _, .goto c :: k => c != .halt && wellSequenced false k
  | _, _ :: k => wellSequenced false k

/-- An operation is in progress from `s` to `t`: it has not halted the block, moved the position back or made a request. -/
structure InProgress (s t : State) : Prop where
  running : s.ctl ≠ .halt → t.ctl ≠ .halt
  pos_le : s.pos ≤ t.pos
  request_eq : t.request = s.request

theorem InProgress.trans {s t u : State} (h : InProgress s t) (h' : InProgress t u) : InProgress s u :=
  ⟨h'.running ∘ h.running, h.pos_le.trans h'.pos_le, h'.request_eq.trans h.request_eq⟩

theorem cellSuccessor_ne_halt (r : Role) : (cellSuccessor r).2 ≠ .halt := by cases r <;> decide

theorem perform_done_inProgress {a : Action} {s t : State} (ha : a ≠ .goto .halt) (h : perform a s = .done t) :
    InProgress s t := by
  cases a with
  | wait l =>
    have o := waitFrom_outcomes l s.inp s
    rw [show waitFrom l s.inp s = _ from h] at o
    obtain ⟨hpos, e, -⟩ := o
    rw [e]
    exact ⟨id, hpos, rfl⟩
  | sample =>
    have o := sampleFrom_outcomes s.inp s
    rw [show sampleFrom s.inp s = _ from h] at o
    rw [o.1]
    exact ⟨id, le_rfl, rfl⟩
  | skip n =>
    rw [perform_skip_done h]
    exact ⟨id, Nat.le_add_right _ _, rfl⟩
  | goto c =>
    obtain rfl := Run.done.inj h
    exact ⟨fun _ hc => ha (congrArg Action.goto hc), le_rfl, rfl⟩
  | endCell r =>
    obtain rfl := Run.done.inj h
    exact ⟨fun _ => cellSuccessor_ne_halt r, le_rfl, rfl⟩
  | flushIfPending =>
    obtain rfl := Run.done.inj h
    rw [flushIfPending_eq]
    exact ⟨id, le_rfl, rfl⟩
  | append =>
    rw [perform_append_eq] at h
    split_ifs at h
    obtain rfl := Run.done.inj h
    exact ⟨id, le_rfl, rfl⟩
  | _ =>
    obtain rfl := Run.done.inj h
    exact ⟨id, le_rfl, rfl⟩

theorem perform_suspended_inProgress {a b : Action} {s t : State} (h : perform a s = .suspended b t) :
    InProgress s t := by
  obtain ⟨-, ⟨l, rfl, rfl⟩ | ⟨rfl, rfl⟩ | ⟨n, k, -, rfl, rfl, -⟩⟩ := perform_suspended h
  · have o := waitFrom_outcomes l s.inp s
    rw [show waitFrom l s.inp s = _ from h] at o
    obtain ⟨-, hpos, e⟩ := o
    rw [e]
    exact ⟨id, hpos, rfl⟩
  · have o := sampleFrom_outcomes s.inp s
    rw [show sampleFrom s.inp s = _ from h] at o
    rw [o.2]
    exact ⟨id, le_rfl, rfl⟩
  · have o := skipFrom_outcomes s.inp n s
    rw [show skipFrom s.inp n s = _ from h] at o
    obtain ⟨k', -, -, e⟩ := o
    rw [e]
    exact ⟨id, Nat.le_add_right _ _, rfl⟩

/-- A well sequenced list holds none of the two actions it excludes at its head, and the rest is well sequenced. -/
theorem wellSequenced_cons {c : Bool} {a : Action} {k : List Action} (h : wellSequenced c (a :: k) = true) :
    (a = .openLevel → c = true) ∧ a ≠ .goto .halt ∧ wellSequenced (a == .sample) k = true := by
  cases a with
  | goto d =>
    obtain ⟨hd, hk⟩ := Bool.and_eq_true_iff.mp h
    exact ⟨nofun, fun e => bne_iff_ne.mp hd (Action.goto.inj e), hk⟩
  | openLevel =>
    obtain ⟨hc, hk⟩ := Bool.and_eq_true_iff.mp h
    exact ⟨fun _ => hc, nofun, hk⟩
  | _ => exact ⟨nofun, nofun, h⟩

theorem perform_sample_done_inp {s t : State} (h : perform .sample s = .done t) : t.inp ≠ [] := by
  have o := sampleFrom_outcomes s.inp s
  rw [show sampleFrom s.inp s = _ from h] at o
  obtain ⟨-, x, r, b, hx, -⟩ := o
  simp [hx]

/-! ### Suspension and resumption -/

/-- The state `t` holds the operation that `k` is what was left of in `s`: nothing is left of the input, and over any
further input the operation goes on as `k` would have over the whole. -/
structure SuspendedFrom (r : Returns) (k : List Action) (s t : State) : Prop where
  inProgress : InProgress s t
  inp_nil : t.inp = []
  resumes : ∃ p, t.pending = some p ∧ ∀ x, resume p (t.withInp x) = runActions r k (s.withInp (s.inp ++ x))

theorem runActions_suspended {r : Returns} {k : List Action} {c : Bool} {s t : State} (hk : wellSequenced c k = true)
    (hc : c = true → s.inp ≠ []) (h : runActions r k s = .next t) (ht : t.result = .suspended) :
    SuspendedFrom r k s t := by
  induction k generalizing c s with
  | nil =>
    rw [runActions_nil] at h
    cases h
    cases ht
  | cons a k ih =>
    obtain ⟨hopen, hgoto, hk⟩ := wellSequenced_cons hk
    have hdeliver (x) := perform_append (a := a) (s := s) x (hc ∘ hopen)
    cases ha : perform a s with
    | done u =>
      rw [runActions_cons_done r k ha] at h
      have hu : (a == .sample) = true → u.inp ≠ [] := by
        intro hs
        obtain rfl := eq_of_beq hs
        exact perform_sample_done_inp ha
      obtain ⟨hp, hinp, p, hpend, hres⟩ := ih hk hu h
      refine ⟨(perform_done_inProgress hgoto ha).trans hp, hinp, p, hpend, fun x => ?_⟩
      rw [hres x, runActions_cons_done r k ((hdeliver x).trans (by rw [ha]; rfl))]
    | suspended b u =>
      rw [runActions_cons_suspended r k ha] at h
      cases h
      obtain ⟨hctl, hpos, hreq⟩ := perform_suspended_inProgress ha
      refine ⟨⟨hctl, hpos, hreq⟩, (perform_suspended ha).1, _, rfl, fun x => ?_⟩
      have hwhole : perform a (s.withInp (s.inp ++ x)) = perform b (u.withInp x) :=
        (hdeliver x).trans (by rw [ha]; rfl)
      calc
        _ = runActions r (b :: k) (u.withInp x) :=
          runActions_withRecord r (b :: k) (some ⟨b :: k, r⟩) .suspended (u.withInp x)
        _ = _ := by simp only [runActions, hwhole]
    | ended u =>
      rw [runActions_cons_ended r k ha] at h
      cases h
      cases ht
    | restarted u =>
      rw [runActions_cons_restarted r k ha] at h
      cases h
      cases ht
    | stuck f => simp [runActions, ha] at h

/-- The operations that need samples are well sequenced lists of actions, guarded against HALT. -/
theorem exec_needsSamples {i : Instr} (hi : needsSamples i = true) :
    ∃ r k, wellSequenced false k = true ∧ ∀ s, exec i s = operation s (runActions r k) := by
  cases i with
  | waitlvl | sample | skip | demodStart | demodData | demodStop | expectStop | decodeByte | loop =>
    exact ⟨_, _, rfl, fun _ => rfl⟩
  | _ => cases hi

/-! ### Requests that do not wait -/

/-- R103, R200: POS or RESET, requested, is performed in any state. -/
theorem step_request_available {s : State} {w : InstrWord} {i : Instr} (hr : s.request = some w)
    (hw : decode w = .ok i) (hi : i = .pos ∨ i = .reset) : step s = exec i (s.withRequest none) := by
  have hav : s.requestAvailable = true := by
    rcases hi with rfl | rfl <;> simp [State.requestAvailable, hr, hw]
  have hres : resumption s = none := by simp [resumption, hav]
  have hop : isTransition i = false := by rcases hi with rfl | rfl <;> rfl
  simp [step, hres, undefinedSelector_request hr, fetchWord_request hr, passFetch_request hr, hw, hop]

end Sys2Proof.Machine

/-! SUPPORT. Proofs, third part: the tick machine and LOOP over one stream (R6, R130, R174). In each of its control states
the tick machine has certain actions of LOOP still ahead of it (`loopRest`); a tick that it takes is a tick that these
actions take, and what is then ahead is what is left of them. -/

namespace Sys2Proof.Machine

open Sys2Proof Sys2Proof.Safety

/-! ### The cursor operations, one symbol at a time -/

section

variable {s : State} {p : PortIn} {q : List PortIn} {b : Level}

theorem withInp_of_inp_eq (hs : s.inp = q) : s.withInp q = s := by rw [← hs]; rfl

theorem perform_wait_miss {l : Level} (hs : s.inp = p :: q) (hp : p.symbol = .sample b) (hb : b ≠ l) :
    perform (.wait l) s = perform (.wait l) (s.withInp q).advance := by
  simp only [perform, hs, waitFrom, hp, if_neg hb]
  exact (waitFrom_withInp l q q s.advance).symm

theorem perform_wait_hit (hs : s.inp = p :: q) (hp : p.symbol = .sample b) : perform (.wait b) s = .done s := by
  simp only [perform, hs, waitFrom, hp, if_true, withInp_of_inp_eq hs]

theorem perform_wait_eos {l : Level} (hs : s.inp = p :: q) (hp : p.symbol = .eos) :
    perform (.wait l) s = .ended (s.withInp q).raiseEndOfStream := by
  simp only [perform, hs, waitFrom, hp]

theorem perform_sample_hit (hs : s.inp = p :: q) (hp : p.symbol = .sample b) : perform .sample s = .done s := by
  simp only [perform, hs, sampleFrom, hp, withInp_of_inp_eq hs]

theorem perform_sample_eos (hs : s.inp = p :: q) (hp : p.symbol = .eos) :
    perform .sample s = .ended (s.withInp q).raiseEndOfStream := by
  simp only [perform, hs, sampleFrom, hp]

theorem perform_openLevel (hs : s.inp = p :: q) (hp : p.symbol = .sample b) :
    perform .openLevel s = .done (s.openCell b) := by
  have hpin : s.port.pin = b := by rw [State.port, hs]; exact symbol_sample_pin hp
  rw [perform, hpin]

/-- One tick of a skip; the register may hold any count meanwhile, since the action carries its own. -/
theorem perform_skip_tick (n : Nat) (c : BitVec 6) (hs : s.inp = p :: q) (hp : p.symbol = .sample b) :
    perform (.skip (n + 1)) s = perform (.skip n) ((s.withInp q).advance.withSkip c) := by
  simp only [perform, hs, skipFrom, hp]
  exact (skipFrom_withInp_withSkip q q n c s.advance).symm

theorem perform_skip_zero (s : State) : perform (.skip 0) s = .done (s.withSkip 0) := by
  cases h : s.inp <;> simp only [perform, h, skipFrom, withInp_of_inp_eq h]

theorem perform_skip_last (hs : s.inp = p :: q) (hp : p.symbol = .sample b) :
    perform (.skip 1) s = .done ((s.withInp q).advance.withSkip 0) :=
  (perform_skip_tick 0 0 hs hp).trans (perform_skip_zero _)

theorem perform_skip_eos (hs : s.inp = p :: q) (hp : p.symbol = .eos) (hc : 1 ≤ s.skipCnt.toNat) :
    perform (.skip s.skipCnt.toNat) s = .ended (s.withInp q).raiseEndOfStream := by
  obtain ⟨n, hn⟩ := Nat.exists_eq_add_of_le' hc
  have hcount : BitVec.ofNat 6 (n + 1) = s.skipCnt := by rw [← hn]; simp
  rw [hn]
  simp only [perform, hs, skipFrom, hp, hcount]
  rfl

theorem runActions_cons_congr {r : Returns} {a a' : Action} {k : List Action} {t : State}
    (h : perform a s = perform a' t) : runActions r (a :: k) s = runActions r (a' :: k) t := by
  simp only [runActions, h]

end

/-! ### What is ahead of the tick machine -/

/-- R120 steps 3 to 6, R131: what LOOP does from the first of `n` data cells on. -/
def frameTail (n : Nat) : List Action := dataCells n ++ .endData :: (expectStop ++ [.append])

theorem frameTail_zero : frameTail 0 = .endData :: (levelCell .stop ++ [.append]) := rfl

theorem frameTail_succ (n : Nat) : frameTail (n + 1) = levelCell .data ++ .mergeBit :: frameTail n := by
  simp [frameTail, dataCells]

/-- What LOOP does when the cell in progress has ended. -/
def afterCell (s : State) : List Action :=
  match s.role with
  | .start => .beginByte :: frameTail Config.dataBits
  | .data => .mergeBit :: frameTail (Config.dataBits - 1 - s.bitIdx.toNat)
  | .stop => [.append]

/-- R174: what LOOP does from the place at which the tick machine is in the state `s`. -/
def loopRest (s : State) : List Action :=
  match s.ctl with
  | .hunt => .wait Config.startLevel :: .openStart :: (cellBody s.role ++ afterCell s)
  | .first => .sample :: .openLevel :: (cellBody s.role ++ afterCell s)
  | .skipLow =>
    .skip s.skipCnt.toNat :: .goto .skipHigh :: .skip Config.highSkip :: .endCell s.role :: afterCell s
  | .skipHigh => .skip s.skipCnt.toNat :: .endCell s.role :: afterCell s
  | .halt => []

theorem loopRest_hunt {s : State} (h : s.ctl = .hunt) :
    loopRest s = .wait false :: .openStart :: (cellBody s.role ++ afterCell s) := by rw [loopRest, h]; rfl

theorem loopRest_first {s : State} (h : s.ctl = .first) :
    loopRest s = .sample :: .openLevel :: (cellBody s.role ++ afterCell s) := by rw [loopRest, h]

theorem loopRest_skipLow {s : State} (h : s.ctl = .skipLow) :
    loopRest s = .skip s.skipCnt.toNat :: .goto .skipHigh :: .skip 36 :: .endCell s.role :: afterCell s := by
  rw [loopRest, h]; rfl

theorem loopRest_skipHigh {s : State} (h : s.ctl = .skipHigh) :
    loopRest s = .skip s.skipCnt.toNat :: .endCell s.role :: afterCell s := by rw [loopRest, h]

/-- LOOP from the place of the tick machine on. -/
def runRest (s : State) : Host.Outcome State Fault Refusal := runActions .nothing (loopRest s) s

theorem execLoop_withRecord (p : Option Pending) (x : Result) {s : State} (h : s.ctl ≠ .halt) :
    execLoop (s.withRecord p x) = execLoop s := by
  have h' : (s.withRecord p x).ctl ≠ .halt := h
  rw [execLoop, execLoop, operation_running h, operation_running h', runActions_withRecord]

/-- R131: from a hunt LOOP flushes if it must, and then is where the tick machine is. -/
theorem execLoop_hunt {s : State} (hc : s.ctl = .hunt) (hr : s.role = .start) :
    execLoop s = runRest (flushIfPending s) := by
  have hc' : (flushIfPending s).ctl = .hunt := by rw [flushIfPending_eq]; exact hc
  have hr' : (flushIfPending s).role = .start := by rw [flushIfPending_eq]; exact hr
  have hstart : ((flushIfPending s).withRole .start).goto .hunt = flushIfPending s := by rw [← hc', ← hr']; rfl
  have hafter : afterCell (flushIfPending s) = .beginByte :: frameTail 8 := by rw [afterCell, hr']; rfl
  rw [runRest, loopRest_hunt hc', hr', hafter, execLoop, operation_running (by simp [hc])]
  change runActions .nothing _ (((flushIfPending s).withRole .start).goto .hunt) = _
  rw [hstart]
  rfl

theorem endDataIfEight_of_eq {s : State} (h : s.bitIdx.toNat = 8) : endDataIfEight s = endData s := if_pos h

theorem endDataIfEight_of_ne {s : State} (h : s.bitIdx.toNat ≠ 8) : endDataIfEight s = s := if_neg h

/-! ### Cells and their ends, as the actions of LOOP do them -/

section

variable {s : State} {p : PortIn} {q : List PortIn} {b : Level} {k : List Action}

/-- R166, R167: the first tick of a cell that has been opened. -/
theorem runActions_cellBody (ρ : Role) (hs : s.inp = p :: q) (hp : p.symbol = .sample b) :
    runActions .nothing (cellBody ρ ++ k) s =
      runActions .nothing (.skip 15 :: .goto .skipHigh :: .skip 36 :: .endCell ρ :: k)
        (((s.withInp q).advance.withSkip 15).goto .skipLow) :=
  runActions_cons_congr (s := s.goto .skipLow) (perform_skip_tick 15 15 hs hp)

/-- R171 to R173: the last tick of a cell. -/
theorem runActions_lastTick (ρ : Role) (hs : s.inp = p :: q) (hp : p.symbol = .sample b) :
    runActions .nothing (.skip 1 :: .endCell ρ :: k) s =
      runActions .nothing k (lastTick ρ s.cellVal (s.withInp q)) :=
  runActions_cons_done _ _ (perform_skip_last hs hp)

/-- R111, R112: a cell that follows another begins with its SAMPLE, since FIRST and the role have been entered already. -/
theorem runActions_levelCell {ρ : Role} (hc : s.ctl = .first) (hr : s.role = ρ) :
    runActions .nothing (levelCell ρ ++ k) s =
      runActions .nothing (.sample :: .openLevel :: (cellBody ρ ++ k)) s := by
  have hentered : (s.withRole ρ).goto .first = s := by rw [← hc, ← hr]; rfl
  change runActions .nothing _ ((s.withRole ρ).goto .first) = _
  rw [hentered]
  rfl

/-- R120 step 3, R172: between the cells of a byte, LOOP goes on with the next data cell, or after eight bits with the stop
cell, as the tick machine does. -/
theorem runActions_frameTail (hc : s.ctl = .first) (hr : s.role = .data) (hb : s.bitIdx.toNat ≤ 8) :
    runActions .nothing (frameTail (8 - s.bitIdx.toNat)) s = runRest (endDataIfEight s) := by
  by_cases h : s.bitIdx.toNat = 8
  · have hstop : loopRest (endData s) = .sample :: .openLevel :: (cellBody .stop ++ [.append]) := loopRest_first hc
    rw [endDataIfEight_of_eq h, runRest, hstop, h]
    exact runActions_levelCell (s := endData s) hc rfl
  · have hdata : afterCell s = .mergeBit :: frameTail (7 - s.bitIdx.toNat) := by rw [afterCell, hr]; rfl
    rw [endDataIfEight_of_ne h, runRest, loopRest_first hc, hdata, hr,
      show 8 - s.bitIdx.toNat = 7 - s.bitIdx.toNat + 1 by omega, frameTail_succ]
    exact runActions_levelCell hc hr

end

/-! ### The states of the tick machine inside LOOP -/

/-- A part of the invariant: what the two levels need of a state to go on alike. -/
structure InsideLoop (s : State) : Prop where
  hardwired : Hardwired s
  selectable : s.selectable = true
  running : s.ctl ≠ .halt
  startVal : s.ctl = .skipLow ∨ s.ctl = .skipHigh → s.role = .start → s.cellVal = false
  dataBits : s.role = .data → s.bitIdx.toNat < 8

/-- LOOP repeated behind one that is in progress: when it has completed, at most `n` more. -/
def andLoops (n : Nat) : Host.Outcome State Fault Refusal → Host.Outcome State Fault Refusal
  | .next t =>
    match t.result with
    | .completed _ => runLoops n t
    | _ => .next t
  | r => r

theorem runLoops_succ (n : Nat) (s : State) : runLoops (n + 1) s = andLoops n (execLoop s) := by
  rw [runLoops]
  cases execLoop s <;> rfl

/-- A sample takes the tick machine from `s` to `t`, where `q` is the input left, and takes LOOP along: repeated from the place
of `s`, it ends as it ends from the place of `t`. At most one LOOP is completed. -/
structure SampleTaken (s : State) (q : List PortIn) (t : State) : Prop where
  step_eq : step s = .next t
  inside : InsideLoop t
  inp_eq : t.inp = q
  loops : ∀ n, ∃ m, n ≤ m ∧ andLoops (n + 1) (runRest s) = andLoops m (runRest t)

/-- Where no LOOP is completed the two places are of one LOOP. -/
theorem andLoops_of_runRest_eq {s t : State} (h : runRest s = runRest t) (n : Nat) :
    ∃ m, n ≤ m ∧ andLoops (n + 1) (runRest s) = andLoops m (runRest t) := ⟨n + 1, Nat.le_succ n, by rw [h]⟩

theorem step_insideLoop {s : State} {p : PortIn} {q : List PortIn} (h : InsideLoop s) (hs : s.inp = p :: q) :
    step s = exec (transitionOf s p) (s.withInp q) := by
  rw [step_hardwired h.hardwired h.selectable, State.port, hs]
  rfl

theorem last_iff {s : State} : s.last = true ↔ s.skipCnt.toNat = 1 := by
  rw [State.last, beq_iff_eq, ← BitVec.toNat_inj]
  rfl

section

variable {s : State} {p : PortIn} {q : List PortIn} {b : Level}

/-- T.HUNT.MISS (R165): WAITLVL passes the sample over. -/
theorem sampleTaken_huntMiss (h : InsideLoop s) (hs : s.inp = p :: q) (hp : p.symbol = .sample true)
    (hc : s.ctl = .hunt) : SampleTaken s q (s.withInp q).advance where
  step_eq := by
    have ht : transitionOf s p = .tHuntMiss := by simp [transitionOf, hp, hc]
    rw [step_insideLoop h hs, ht]
    rfl
  inside := ⟨h.hardwired, h.selectable, h.running, h.startVal, h.dataBits⟩
  inp_eq := rfl
  loops := by
    refine andLoops_of_runRest_eq ?_
    have hrest : loopRest (s.withInp q).advance = loopRest s := rfl
    rw [runRest, runRest, hrest, loopRest_hunt hc]
    exact runActions_cons_congr (perform_wait_miss hs hp nofun)

/-- A cell that has been opened at its first tick is inside LOOP. -/
theorem insideLoop_firstTick {v : Level} (h : InsideLoop s) (hv : s.role = .start → v = false) :
    InsideLoop (firstTick v (s.withInp q)) where
  hardwired := h.hardwired
  selectable := selectable_iff.mpr ⟨(selectable_iff.mp h.selectable).1, nofun, nofun,
    fun _ => show 1 ≤ (15 : BitVec 6).toNat ∧ (15 : BitVec 6).toNat < 16 by decide, nofun⟩
  running := nofun
  startVal := fun _ => hv
  dataBits := h.dataBits

/-- T.HUNT.HIT (R166): WAITLVL finds the start bit and the start cell opens. -/
theorem sampleTaken_huntHit (h : InsideLoop s) (hs : s.inp = p :: q) (hp : p.symbol = .sample false)
    (hc : s.ctl = .hunt) : SampleTaken s q (firstTick false (s.withInp q)) where
  step_eq := by
    have hr : s.role = .start := (selectable_iff.mp h.selectable).2.1 hc
    have ht : transitionOf s p = .tHuntHit := by simp [transitionOf, hp, hc]
    have hrole : (firstTick false (s.withInp q)).withRole .start = firstTick false (s.withInp q) := by rw [← hr]; rfl
    rw [step_insideLoop h hs, ht, ← hrole]
    rfl
  inside := insideLoop_firstTick h fun _ => rfl
  inp_eq := rfl
  loops := by
    refine andLoops_of_runRest_eq ?_
    rw [runRest, loopRest_hunt hc, runActions_cons_done _ _ (perform_wait_hit hs hp)]
    exact runActions_cellBody (s := s.openCell false) s.role hs hp

/-- T.FIRST (R167): SAMPLE finds the level and the cell opens with it. -/
theorem sampleTaken_first (h : InsideLoop s) (hs : s.inp = p :: q) (hp : p.symbol = .sample b) (hc : s.ctl = .first) :
    SampleTaken s q (firstTick b (s.withInp q)) where
  step_eq := by
    have ht : transitionOf s p = .tFirst b := by simp [transitionOf, hp, hc]
    rw [step_insideLoop h hs, ht]
    rfl
  inside := insideLoop_firstTick h fun hr => absurd hr ((selectable_iff.mp h.selectable).2.2.1 hc)
  inp_eq := rfl
  loops := by
    refine andLoops_of_runRest_eq ?_
    rw [runRest, loopRest_first hc, runActions_cons_done _ _ (perform_sample_hit hs hp),
      runActions_cons_done _ _ (perform_openLevel hs hp)]
    exact runActions_cellBody (s := s.openCell b) s.role hs hp

/-- T.LOW.STEP and T.HIGH.STEP (R168, R170): SKIP takes one of its ticks, and more are owed. -/
theorem sampleTaken_skipTick (h : InsideLoop s) (hs : s.inp = p :: q) (hp : p.symbol = .sample b)
    (hc : s.ctl = .skipLow ∨ s.ctl = .skipHigh) (hn : s.skipCnt.toNat ≠ 1) :
    SampleTaken s q (skipTick (s.withInp q)) := by
  obtain ⟨hheld, -, -, hlow, hhigh⟩ := selectable_iff.mp h.selectable
  have hpos : 1 ≤ s.skipCnt.toNat := hc.elim (fun e => (hlow e).1) fun e => (hhigh e).1
  have hlast : s.last = false := Bool.eq_false_iff.mpr (hn ∘ last_iff.mp)
  have hcount : (s.skipCnt - 1).toNat + 1 = s.skipCnt.toNat := by bv_omega
  have hskip : perform (.skip s.skipCnt.toNat) s = perform (.skip (s.skipCnt - 1).toNat) (skipTick (s.withInp q)) := by
    rw [← hcount]
    exact perform_skip_tick _ _ hs hp
  refine ⟨?_, ⟨h.hardwired, ?_, h.running, h.startVal, h.dataBits⟩, rfl, andLoops_of_runRest_eq ?_⟩
  · rw [step_insideLoop h hs]
    rcases hc with hc | hc <;> simp only [transitionOf, hp, hc, hlast] <;> rfl
  · have hrange : (skipTick (s.withInp q)).skipCnt.toNat + 1 = s.skipCnt.toNat := hcount
    refine selectable_iff.mpr ⟨hheld, (selectable_iff.mp h.selectable).2.1, (selectable_iff.mp h.selectable).2.2.1,
      fun e => ?_, fun e => ?_⟩
    · have := hlow e
      omega
    · have := hhigh e
      omega
  · rcases hc with hc | hc
    · rw [runRest, runRest, loopRest_skipLow hc, loopRest_skipLow (s := skipTick (s.withInp q)) hc]
      exact runActions_cons_congr hskip
    · rw [runRest, runRest, loopRest_skipHigh hc, loopRest_skipHigh (s := skipTick (s.withInp q)) hc]
      exact runActions_cons_congr hskip

/-- T.LOW.LAST (R169): the first SKIP of the cell is complete and the second begins. -/
theorem sampleTaken_lowLast (h : InsideLoop s) (hs : s.inp = p :: q) (hp : p.symbol = .sample b)
    (hc : s.ctl = .skipLow) (hn : s.skipCnt.toNat = 1) :
    SampleTaken s q (((s.withInp q).advance.withSkip 36).goto .skipHigh) where
  step_eq := by
    have ht : transitionOf s p = .tLowLast := by simp [transitionOf, hp, hc, last_iff.mpr hn]
    rw [step_insideLoop h hs, ht]
    rfl
  inside :=
    ⟨h.hardwired, selectable_iff.mpr ⟨(selectable_iff.mp h.selectable).1, nofun, nofun, nofun,
      fun _ => show 1 ≤ (36 : BitVec 6).toNat ∧ (36 : BitVec 6).toNat ≤ 36 by decide⟩,
      nofun, fun _ => h.startVal (.inl hc), h.dataBits⟩
  inp_eq := rfl
  loops := by
    refine andLoops_of_runRest_eq ?_
    rw [runRest, loopRest_skipLow hc, hn, runActions_cons_done _ _ (perform_skip_last hs hp)]
    refine runActions_cons_congr (s := (((s.withInp q).advance.withSkip 0).goto .skipHigh)) ?_
    exact skipFrom_withInp_withSkip q q 36 0 ((s.withInp q).advance.goto .skipHigh) |>.trans
      (skipFrom_withInp_withSkip q q 36 36 ((s.withInp q).advance.goto .skipHigh)).symm

/-- The place after the last tick of a cell. -/
theorem runRest_lastTick (hs : s.inp = p :: q) (hp : p.symbol = .sample b) (hc : s.ctl = .skipHigh)
    (hn : s.skipCnt.toNat = 1) :
    runRest s = runActions .nothing (afterCell s) (lastTick s.role s.cellVal (s.withInp q)) := by
  rw [runRest, loopRest_skipHigh hc, hn]
  exact runActions_lastTick s.role hs hp

/-- Between the cells of a byte the tick machine is inside LOOP. -/
theorem insideLoop_endDataIfEight (hw : Hardwired s) (hheld : s.tg.length < 7) (hc : s.ctl = .first)
    (hr : s.role = .data) (hb : s.bitIdx.toNat ≤ 8) : InsideLoop (endDataIfEight s) := by
  by_cases h : s.bitIdx.toNat = 8
  · rw [endDataIfEight_of_eq h]
    exact ⟨hw, selectable_iff.mpr ⟨hheld, by simp [endData_eq, hc]⟩, by simp [endData_eq, hc],
      by simp [endData_eq], by simp [endData_eq]⟩
  · rw [endDataIfEight_of_ne h]
    exact ⟨hw, selectable_iff.mpr ⟨hheld, by simp [hc, hr]⟩, by simp [hc], by simp [hc], fun _ => by omega⟩

/-- T.END.START (R171): the start cell ends and the data bits begin. -/
theorem sampleTaken_endStart (h : InsideLoop s) (hs : s.inp = p :: q) (hp : p.symbol = .sample b)
    (hc : s.ctl = .skipHigh) (hn : s.skipCnt.toNat = 1) (hr : s.role = .start) :
    SampleTaken s q (lastTick .start false (s.withInp q)).beginByte where
  step_eq := by
    have ht : transitionOf s p = .tEndStart := by simp [transitionOf, hp, hc, last_iff.mpr hn, hr]
    rw [step_insideLoop h hs, ht]
    rfl
  inside :=
    insideLoop_endDataIfEight (s := (lastTick .start false (s.withInp q)).beginByte) h.hardwired
      (selectable_iff.mp h.selectable).1 rfl rfl (Nat.zero_le 8)
  inp_eq := rfl
  loops := by
    refine andLoops_of_runRest_eq ?_
    rw [runRest_lastTick hs hp hc hn, afterCell, hr, h.startVal (.inr hc) hr]
    exact runActions_frameTail (s := (lastTick .start false (s.withInp q)).beginByte) rfl rfl (Nat.zero_le 8)

/-- T.END.DATA (R172): the data cell ends and its bit is merged. -/
theorem sampleTaken_endData (h : InsideLoop s) (hs : s.inp = p :: q) (hp : p.symbol = .sample b)
    (hc : s.ctl = .skipHigh) (hn : s.skipCnt.toNat = 1) (hr : s.role = .data) :
    SampleTaken s q (endDataIfEight (lastTick .data s.cellVal (s.withInp q)).mergeBit) := by
  have hbits := h.dataBits hr
  have hmerged : (lastTick .data s.cellVal (s.withInp q)).mergeBit.bitIdx.toNat = s.bitIdx.toNat + 1 := by
    change (s.bitIdx + 1).toNat = _
    bv_omega
  refine ⟨?_, insideLoop_endDataIfEight h.hardwired (selectable_iff.mp h.selectable).1 rfl rfl (by omega), ?_,
    andLoops_of_runRest_eq ?_⟩
  · have ht : transitionOf s p = .tEndData := by simp [transitionOf, hp, hc, last_iff.mpr hn, hr]
    rw [step_insideLoop h hs, ht]
    rfl
  · unfold endDataIfEight
    split_ifs <;> rfl
  · rw [runRest_lastTick hs hp hc hn, afterCell, hr, ← runActions_frameTail rfl rfl (by omega), hmerged]
    change runActions .nothing (frameTail (7 - s.bitIdx.toNat)) _ = _
    rw [Nat.add_sub_add_right 7 1]

/-- T.END.STOP (R173): the stop cell ends, APPEND completes this LOOP, and the next one flushes if it must. -/
theorem sampleTaken_endStop (h : InsideLoop s) (hs : s.inp = p :: q) (hp : p.symbol = .sample b)
    (hc : s.ctl = .skipHigh) (hn : s.skipCnt.toNat = 1) (hr : s.role = .stop) :
    SampleTaken s q (flushIfPending ((lastTick .stop s.cellVal (s.withInp q)).store (byteEntry s))) := by
  have hheld := (selectable_iff.mp h.selectable).1
  have hroom : (lastTick .stop s.cellVal (s.withInp q)).tg.length < 7 := hheld
  generalize hu : (lastTick .stop s.cellVal (s.withInp q)).store (byteEntry s) = u
  have huc : u.ctl = .hunt := by rw [← hu]; rfl
  have hur : u.role = .start := by rw [← hu]; rfl
  have hulen : u.tg.length ≤ 7 := by rw [← hu]; simpa [State.store, lastTick_eq] using hheld
  have happend : perform .append (lastTick .stop s.cellVal (s.withInp q)) = .done u := by
    rw [perform_append_eq, if_pos hroom, ← hu]
    rfl
  refine ⟨?_, ?_, by rw [flushIfPending_eq, ← hu]; rfl, fun n => ⟨n, le_rfl, ?_⟩⟩
  · have ht : transitionOf s p = .tEndStop := by simp [transitionOf, hp, hc, last_iff.mpr hn, hr]
    have hstored : appendEntry (byteEntry (s.withInp q)) (lastTick .stop s.cellVal (s.withInp q)) = .ok u :=
      appendEntry_eq_ok.mpr ⟨hroom, hu.symm⟩
    rw [step_insideLoop h hs, ht]
    exact congrArg (storedNext · flushIfPending) hstored
  · have hlen : (flushIfPending u).tg.length < 7 := by
      rw [flushIfPending_eq]
      dsimp only
      split_ifs
      · decide
      · omega
    have hwired : Hardwired u := by rw [← hu]; exact h.hardwired
    rw [flushIfPending_eq] at hlen ⊢
    exact ⟨hwired, selectable_iff.mpr ⟨hlen, by simp [huc, hur]⟩, by simp [huc], by simp [huc], by simp [hur]⟩
  · have hdone : runRest s = .next (u.withRecord none (.completed .nothing)) := by
      rw [runRest_lastTick hs hp hc hn, afterCell, hr]
      exact runActions_cons_done _ _ happend
    have hnext : execLoop (u.withRecord none (.completed .nothing)) = execLoop u :=
      execLoop_withRecord _ _ (by simp [huc])
    calc andLoops (n + 1) (runRest s)
        = runLoops (n + 1) (u.withRecord none (.completed .nothing)) := by rw [hdone]; rfl
      _ = andLoops n (execLoop u) := by rw [runLoops_succ, hnext]
      _ = andLoops n (runRest (flushIfPending u)) := by rw [execLoop_hunt huc hur]

/-- R174: whatever its place in LOOP, the tick machine takes a sample as LOOP does. -/
theorem exists_sampleTaken (h : InsideLoop s) (hs : s.inp = p :: q) (hp : p.symbol = .sample b) :
    ∃ t, SampleTaken s q t := by
  cases hc : s.ctl with
  | hunt =>
    cases b with
    | true => exact ⟨_, sampleTaken_huntMiss h hs hp hc⟩
    | false => exact ⟨_, sampleTaken_huntHit h hs hp hc⟩
  | first => exact ⟨_, sampleTaken_first h hs hp hc⟩
  | skipLow =>
    by_cases hn : s.skipCnt.toNat = 1
    · exact ⟨_, sampleTaken_lowLast h hs hp hc hn⟩
    · exact ⟨_, sampleTaken_skipTick h hs hp (.inl hc) hn⟩
  | skipHigh =>
    by_cases hn : s.skipCnt.toNat = 1
    · cases hr : s.role with
      | start => exact ⟨_, sampleTaken_endStart h hs hp hc hn hr⟩
      | data => exact ⟨_, sampleTaken_endData h hs hp hc hn hr⟩
      | stop => exact ⟨_, sampleTaken_endStop h hs hp hc hn hr⟩
    · exact ⟨_, sampleTaken_skipTick h hs hp (.inr hc) hn⟩
  | halt => exact absurd hc h.running

/-! ### The end of the stream -/

theorem step_eos (h : InsideLoop s) (hs : s.inp = p :: q) (hp : p.symbol = .eos) :
    step s = .next (s.withInp q).raiseEndOfStream := by
  have ht : transitionOf s p = .tEos := by
    rw [transitionOf, hp]
    cases hc : s.ctl with
    | halt => exact absurd hc h.running
    | _ => rfl
  rw [step_insideLoop h hs, ht]
  rfl

/-- R181, R188: whatever its place, LOOP is ended by Eos at the cursor operation it is inside, as the tick machine is. -/
theorem runRest_eos (h : InsideLoop s) (hs : s.inp = p :: q) (hp : p.symbol = .eos) :
    runRest s = .next { (s.withInp q).raiseEndOfStream with result := .ended } := by
  obtain ⟨-, -, -, hlow, hhigh⟩ := selectable_iff.mp h.selectable
  rw [runRest]
  cases hc : s.ctl with
  | hunt => rw [loopRest_hunt hc, runActions_cons_ended _ _ (perform_wait_eos hs hp)]
  | first => rw [loopRest_first hc, runActions_cons_ended _ _ (perform_sample_eos hs hp)]
  | skipLow => rw [loopRest_skipLow hc, runActions_cons_ended _ _ (perform_skip_eos hs hp (hlow hc).1)]
  | skipHigh => rw [loopRest_skipHigh hc, runActions_cons_ended _ _ (perform_skip_eos hs hp (hhigh hc).1)]
  | halt => exact absurd hc h.running

end

/-! ### Whole streams -/

theorem run_succ_of_next (M : Host.Core) {s t : M.State} (n : Nat) (h : M.step s = .next t) :
    M.run (n + 1) s = M.run n t := by rw [Host.Core.run, h]

theorem run_succ {s t : State} (n : Nat) (h : step s = .next t) : core.run (n + 1) s = core.run n t :=
  run_succ_of_next core n h

/-- The tick machine and LOOP end alike over any stream, from whatever place in LOOP. Each LOOP takes a sample at least, so
as many as there are samples are enough. -/
theorem run_eq_andLoops (l : List Level) {s : State} {n : Nat} (h : InsideLoop s) (hs : s.inp = streamThenEos l)
    (hn : l.length ≤ n) :
    ∃ t, core.run (l.length + 1) s = .next t ∧ t.inp = [] ∧
      andLoops n (runRest s) = .next { t with result := .ended } := by
  induction l generalizing s n with
  | nil =>
    refine ⟨(s.withInp []).raiseEndOfStream, ?_, rfl, ?_⟩
    · exact run_succ 0 (step_eos h hs symbol_endOfStream)
    · rw [runRest_eos h hs symbol_endOfStream]
      rfl
  | cons b l ih =>
    obtain ⟨n, rfl⟩ := Nat.exists_eq_add_of_le' (Nat.one_le_of_lt hn)
    obtain ⟨t, hstep, hin, hinp, hloops⟩ := exists_sampleTaken h hs (symbol_ofLevel b)
    obtain ⟨m, hm, hloops⟩ := hloops n
    obtain ⟨u, hrun, hu, heq⟩ := ih hin hinp ((Nat.le_of_succ_le_succ hn).trans hm)
    exact ⟨u, (run_succ _ hstep).trans hrun, hu, hloops.trans heq⟩

end Sys2Proof.Machine

/-! SUPPORT. Proofs, fourth part: the statements of `00_scope.md`. -/

namespace Sys2Proof.Proofs

open Sys2Proof Sys2Proof.Machine Sys2Proof.Safety

/-- Settles O55: every operation but POS and RESET is guarded against HALT. -/
theorem haltHoldsOperations : Obligations.HaltHoldsOperations := by
  unfold Obligations.HaltHoldsOperations
  exact fun i s h hi => exec_halted h hi

/-- R176: a state that meets the invariant is one for which a transition is defined. -/
theorem selectable_of_blockInv {s : State} (h : BlockInv s) : s.selectable = true := by
  obtain ⟨⟨-, hhunt, hfirst⟩, ⟨-, hlow, hhigh⟩, -, ⟨hheld, -⟩, -, -⟩ := h
  exact selectable_iff.mpr ⟨by omega, hhunt, hfirst, fun hc => (hlow hc).imp_right Nat.lt_succ_of_le, hhigh⟩

/-- Settles O9: the state has a transition, and T.END.STOP finds a free entry as at most six bytes are held. -/
theorem invariantStatesAlwaysStep : Obligations.InvariantStatesAlwaysStep := by
  unfold Obligations.InvariantStatesAlwaysStep
  intro s h
  obtain ⟨⟨hw, -⟩, -, -, ⟨hheld, -⟩, -⟩ := id h
  rw [step_hardwired hw (selectable_of_blockInv h)]
  exact exec_transition_next (isTransition_transitionOf s s.port) (Nat.lt_succ_of_le hheld)

/-- Settles O33: the suspended operation is what is left of its actions, and each action over an input in two parts is the
action over the whole. -/
theorem suspendedOperationResumes : Obligations.SuspendedOperationResumes := by
  unfold Obligations.SuspendedOperationResumes
  intro i s t q hi hs h ht
  obtain ⟨r, k, hk, hexec⟩ := exec_needsSamples hi
  have hrun (x : List PortIn) : exec i { s with inp := x } = runActions r k (s.withInp x) :=
    (hexec _).trans (operation_running hs)
  have h₀ := h
  rw [hrun] at h
  obtain ⟨⟨hctl, hpos, hreq⟩, hinp, p, hpend, hres⟩ := runActions_suspended hk nofun h ht
  have hgoes (x : List PortIn) (hav : s.requestAvailable = false) :
      step { t with inp := x } = exec i { s with inp := q ++ x } := by
    have hav' : State.requestAvailable { t with inp := x } = false := by
      rw [← hav]
      simp only [State.requestAvailable, hreq]
      rfl
    have hresumption : resumption { t with inp := x } = some p := (resumption_eq (hctl hs) hav').trans hpend
    rw [step_of_resumption hresumption, hrun]
    exact hres x
  refine ⟨hinp, by simp [hpend], hctl hs, hpos, hgoes, fun hav => ?_, fun x w hw => ?_, fun x w hw => ?_⟩
  · have hstays := hgoes [] hav
    rwa [List.append_nil, h₀, show ({ t with inp := [] } : State) = t by rw [← hinp]] at hstays
  · exact step_request_available rfl hw (.inl rfl)
  · exact step_request_available rfl hw (.inr rfl)

/-- Settles O57: a hunting state that meets the invariant is at the head of a LOOP, where no flush is pending. -/
theorem tickLevelEqualsOperationLevel : Obligations.TickLevelEqualsOperationLevel := by
  unfold Obligations.TickLevelEqualsOperationLevel
  intro s l h hc hs
  obtain ⟨⟨hw, hrole, -⟩, -, ⟨-, hdata, -⟩, ⟨hheld, -⟩, ⟨-, -, -, hval, -⟩, -⟩ := id h
  have hin : InsideLoop s := ⟨hw, selectable_of_blockInv h, by simp [hc], hval, hdata⟩
  obtain ⟨t, hrun, hinp, hloops⟩ := run_eq_andLoops l hin hs (Nat.le_succ l.length)
  refine ⟨t, hrun, hinp, ?_⟩
  rw [runLoops_succ, execLoop_hunt hc (hrole hc), flushIfPending_of_ne (by omega)]
  exact hloops

end Sys2Proof.Proofs

/-! SUPPORT. Proofs, fifth part: the invariant of R36, transition by transition, and the buffer records with any
buffer. -/

namespace Sys2Proof.Machine

open Sys2Proof Sys2Proof.Safety

/-! ### What each transition makes of a state that meets the invariant -/

/-- What the invariant says in HUNT: no cell is in progress, and the bytes held end 52 ticks before the position. -/
theorem blockInv_hunt_iff {s : State} (hc : s.ctl = .hunt) :
    BlockInv s ↔ Hardwired s ∧ s.role = .start ∧ s.skipCnt = 0 ∧
      ((s.bitIdx.toNat = 8 ∨ s.bitIdx.toNat = 0) ∧ (s.bitIdx.toNat = 8 ↔ s.byteEnd ≠ 0)) ∧ BufferOk s ∧
      s.cellStart ≤ s.pos ∧ ∀ e ∈ s.tg, e.es + 52 ≤ s.pos := by
  constructor
  · rintro ⟨⟨hw, hrole, -⟩, ⟨hzero, -, -⟩, ⟨-, -, hbits⟩, hbuf, ⟨hcell, -⟩, hheld, -⟩
    exact ⟨hw, hrole hc, hzero (.inl hc), hbits (hrole hc), hbuf, hcell, hheld hc⟩
  · rintro ⟨hw, hrole, hzero, hbits, hbuf, hcell, hheld⟩
    exact ⟨⟨hw, fun _ => hrole, by simp [hc]⟩, ⟨fun _ => hzero, by simp [hc], by simp [hc]⟩,
      ⟨by simp [hrole], by simp [hrole], fun _ => hbits⟩, hbuf, ⟨hcell, by simp [hc, hrole]⟩,
      fun _ => hheld, by simp [hc, hrole]⟩

/-- R161, R200: the registers of reset meet the invariant, whatever they were before; a request alone would outlast the
reset. -/
theorem blockInv_resetBlock {s : State} (h : s.request = none) : BlockInv s.resetBlock :=
  (blockInv_hunt_iff rfl).mpr ⟨⟨h, rfl⟩, rfl, rfl, ⟨.inr rfl, by simp⟩, ⟨Nat.zero_le 6, nofun, List.Pairwise.nil⟩,
    le_rfl, nofun⟩

section

variable {s : State}

/-- R163, R188: in HALT the invariant says nothing of the skip and of the place in the cell. -/
theorem blockInv_raiseEndOfStream (h : BlockInv s) : BlockInv s.raiseEndOfStream := by
  obtain ⟨⟨⟨hreq, -⟩, -⟩, -, hbits, hbuf, ⟨hcell, -, -, -, -, -, hspan, -⟩, -⟩ := h
  exact ⟨⟨⟨hreq, rfl⟩, nofun, nofun⟩, ⟨by simp, nofun, nofun⟩, hbits, hbuf,
    ⟨hcell, nofun, nofun, by simp, fun _ => nofun, by simp, hspan, fun _ => nofun, by simp⟩,
    nofun, by simp, fun hc => absurd rfl hc⟩

/-- R165: in the hunt the position is bounded from below only. -/
theorem blockInv_huntMiss (h : BlockInv s) (hc : s.ctl = .hunt) : BlockInv s.advance := by
  obtain ⟨hw, hrole, hzero, hbits, hbuf, hcell, hheld⟩ := (blockInv_hunt_iff hc).mp h
  exact (blockInv_hunt_iff (s := s.advance) hc).mpr
    ⟨hw, hrole, hzero, hbits, hbuf, Nat.le_succ_of_le hcell, fun e he => Nat.le_succ_of_le (hheld e he)⟩

/-- R166, R167: a cell opens where the hunt or the frame has come to; a start cell opens low. -/
theorem blockInv_firstTick {v : Level} (h : BlockInv s) (hc : s.ctl = .hunt ∧ v = false ∨ s.ctl = .first) :
    BlockInv (firstTick v s) := by
  obtain ⟨⟨hw, hstart, hfirst⟩, -, hbits, hbuf, ⟨-, -, -, -, hdata, -, hspan, hstop, -⟩, hhunt, -, hframe⟩ := h
  have hplace : s.role = .start → s.ctl = .hunt ∧ v = false := fun hr => hc.resolve_right fun e => hfirst e hr
  have hcell : s.role ≠ .start → s.ctl = .first := fun hr => hc.resolve_left fun e => hr (hstart e.1)
  have hrun : s.ctl ≠ .halt := by rcases hc with ⟨hc, -⟩ | hc <;> simp [hc]
  exact ⟨⟨hw, nofun, nofun⟩,
    ⟨by simp [firstTick_eq], fun _ => show 1 ≤ (15 : BitVec 6).toNat ∧ (15 : BitVec 6).toNat ≤ 15 by decide, nofun⟩,
    hbits, hbuf,
    ⟨Nat.le_succ s.pos, fun _ => rfl, nofun, fun _ hr => (hplace hr).2, fun _ => nofun,
      fun hr _ => hdata hr (hcell (ne_of_eq_of_ne hr nofun)), hspan, fun _ => nofun,
      fun hr _ => hstop hr (hcell (ne_of_eq_of_ne hr nofun))⟩,
    nofun, fun _ hr => hhunt (hplace hr).1, fun _ => hframe hrun⟩

/-- R168, R170: a tick inside a skip takes from the count what it adds to the position. -/
theorem blockInv_skipTick (h : BlockInv s) (hc : s.ctl = .skipLow ∨ s.ctl = .skipHigh) (hn : s.skipCnt.toNat ≠ 1) :
    BlockInv (skipTick s) := by
  obtain ⟨hctl, ⟨-, hlow, hhigh⟩, hbits, hbuf, ⟨hcell, hlow16, hhigh52, hval, -, hdata, hspan, -, hstop⟩, -, hstart,
    hframe⟩ := h
  have hpos : 1 ≤ s.skipCnt.toNat := hc.elim (fun e => (hlow e).1) fun e => (hhigh e).1
  have hcount : (skipTick s).skipCnt.toNat + 1 = s.skipCnt.toNat := by
    change (s.skipCnt - 1).toNat + 1 = _
    bv_omega
  have htick : (skipTick s).pos = s.pos + 1 := rfl
  have hhunt : s.ctl ≠ .hunt := by rcases hc with hc | hc <;> simp [hc]
  have hfirst : s.ctl ≠ .first := by rcases hc with hc | hc <;> simp [hc]
  refine ⟨hctl, ⟨fun e => absurd e (not_or.mpr ⟨hhunt, hfirst⟩), fun e => ?_, fun e => ?_⟩, hbits, hbuf,
    ⟨Nat.le_succ_of_le hcell, fun e => ?_, fun e => ?_, hval, fun _ e => absurd e hfirst, hdata, hspan,
      fun _ e => absurd e hfirst, hstop⟩,
    fun e => absurd e hhunt, hstart, hframe⟩
  · have := hlow e
    omega
  · have := hhigh e
    omega
  · have := hlow16 e
    change (skipTick s).pos + (skipTick s).skipCnt.toNat = s.cellStart + 16
    omega
  · have := hhigh52 e
    change (skipTick s).pos + (skipTick s).skipCnt.toNat = s.cellStart + 52
    omega

/-- R169: the sixteenth tick of a cell; 36 are left of its 52. -/
theorem blockInv_lowLast (h : BlockInv s) (hc : s.ctl = .skipLow) (hn : s.skipCnt.toNat = 1) :
    BlockInv ((s.advance.withSkip 36).goto .skipHigh) := by
  obtain ⟨⟨hw, -⟩, -, hbits, hbuf, ⟨hcell, hlow16, -, hval, -, hdata, hspan, -, hstop⟩, -, hstart, hframe⟩ := h
  have hrun : s.ctl ≠ .halt := by simp [hc]
  have h16 := hlow16 hc
  exact ⟨⟨hw, nofun, nofun⟩,
    ⟨by simp, nofun, fun _ => show 1 ≤ (36 : BitVec 6).toNat ∧ (36 : BitVec 6).toNat ≤ 36 by decide⟩, hbits, hbuf,
    ⟨Nat.le_succ_of_le hcell, nofun, fun _ => show s.pos + 1 + 36 = s.cellStart + 52 by omega, fun _ => hval (.inl hc),
      fun _ => nofun, fun hr _ => hdata hr (.inl hc), hspan, fun _ => nofun, fun hr _ => hstop hr (.inl hc)⟩,
    nofun, fun _ => hstart (.inl hc), fun _ => hframe hrun⟩

/-- R113: the last tick of a cell is its 52nd. -/
theorem pos_cellEnd (h : BlockInv s) (hc : s.ctl = .skipHigh) (hn : s.skipCnt.toNat = 1) :
    s.pos + 1 = s.cellStart + 52 := by
  obtain ⟨-, -, -, -, ⟨-, -, hhigh52, -⟩, -⟩ := h
  have := hhigh52 hc
  omega

/-- R171: the data bits begin where the start cell ends. -/
theorem blockInv_endStart (h : BlockInv s) (hc : s.ctl = .skipHigh) (hn : s.skipCnt.toNat = 1) (hr : s.role = .start) :
    BlockInv (lastTick .start false s).beginByte := by
  have hend := pos_cellEnd h hc hn
  obtain ⟨⟨hw, -⟩, -, -, hbuf, ⟨hcell, -⟩, -, hstart, -⟩ := h
  refine ⟨⟨hw, nofun, nofun⟩, ⟨fun _ => rfl, nofun, nofun⟩, ⟨nofun, fun _ => Nat.zero_lt_succ 7, nofun⟩, hbuf,
    ⟨Nat.le_succ_of_le hcell, nofun, nofun, fun _ => nofun, fun _ _ => rfl, ?_, nofun, nofun, nofun⟩,
    nofun, fun _ => nofun, fun _ _ e he => ?_⟩
  · simp [lastTick_eq, cellSuccessor]
  · have := hstart (.inr hc) hr e he
    change e.es + 104 ≤ s.pos + 1
    omega

/-- R172: the next data cell begins where this one ends, and the stop cell where the eighth ends. -/
theorem blockInv_endData (h : BlockInv s) (hc : s.ctl = .skipHigh) (hn : s.skipCnt.toNat = 1) (hr : s.role = .data) :
    BlockInv (endDataIfEight (lastTick .data s.cellVal s).mergeBit) := by
  have hend := pos_cellEnd h hc hn
  obtain ⟨⟨hw, -⟩, -, ⟨-, hbits, -⟩, hbuf, ⟨hcell, -, -, -, -, hdata, -⟩, -, -, hframe⟩ := h
  have hlt := hbits hr
  have hstart := hdata hr (.inr hc)
  have hheld := hframe (by simp [hc]) (by simp [hr])
  have hmerged : (lastTick .data s.cellVal s).mergeBit.bitIdx.toNat = s.bitIdx.toNat + 1 := by
    change (s.bitIdx + 1).toNat = _
    bv_omega
  by_cases h8 : (lastTick .data s.cellVal s).mergeBit.bitIdx.toNat = 8
  · have hspan : s.pos + 1 = s.startBitSample + 416 := by omega
    rw [endDataIfEight_of_eq h8]
    exact ⟨⟨hw, nofun, nofun⟩, ⟨fun _ => rfl, nofun, nofun⟩, ⟨fun _ => h8, nofun, nofun⟩, hbuf,
      ⟨Nat.le_succ_of_le hcell, nofun, nofun, fun _ => nofun, nofun, nofun, fun _ => hspan, fun _ _ => rfl,
        by simp [endData_eq, lastTick_eq, cellSuccessor, State.mergeBit]⟩,
      nofun, fun _ => nofun, fun _ _ => hheld⟩
  · have hpos : s.pos + 1 = s.startBitSample + 52 * (s.bitIdx.toNat + 1) := by omega
    rw [endDataIfEight_of_ne h8]
    exact ⟨⟨hw, nofun, nofun⟩, ⟨fun _ => rfl, nofun, nofun⟩, ⟨nofun, fun _ => by omega, nofun⟩, hbuf,
      ⟨Nat.le_succ_of_le hcell, nofun, nofun, fun _ => nofun, fun _ _ => hmerged ▸ hpos,
        by simp [lastTick_eq, cellSuccessor, State.mergeBit], nofun, nofun, nofun⟩,
      nofun, fun _ => nofun, fun _ _ => hheld⟩

/-- R36, R134: the byte whose stop cell ends is stored behind the others, and lies behind them on the line. -/
theorem bufferOrder_store (h : BlockInv s) (hrun : s.ctl ≠ .halt) (hr : s.role = .stop) :
    (∀ e ∈ s.tg ++ [byteEntry s], e.es = e.ss + 416) ∧
      (s.tg ++ [byteEntry s]).Pairwise (fun a b => a.es + 104 ≤ b.ss) ∧
      ∀ e ∈ s.tg ++ [byteEntry s], e.es ≤ s.byteEnd := by
  obtain ⟨-, -, -, ⟨-, hspans, hpairs⟩, ⟨-, -, -, -, -, -, hspan, -⟩, -, -, hframe⟩ := h
  have hnew : s.byteEnd = s.startBitSample + 416 := hspan hr
  have hheld := hframe hrun (by simp [hr])
  have hbehind : ∀ e ∈ s.tg, e.es ≤ s.byteEnd := fun e he => by have := hheld e he; omega
  refine ⟨?_, ?_, ?_⟩
  · simpa [or_imp, forall_and, byteEntry] using ⟨hspans, hnew⟩
  · simpa [List.pairwise_append, byteEntry] using ⟨hpairs, hheld⟩
  · simpa [or_imp, forall_and, byteEntry] using hbehind

/-- R173: the hunt begins 52 ticks behind the byte stored, and with seven bytes held the flush leaves none. -/
theorem blockInv_endStop (h : BlockInv s) (hc : s.ctl = .skipHigh) (hn : s.skipCnt.toNat = 1) (hr : s.role = .stop) :
    BlockInv (flushIfPending ((lastTick .stop s.cellVal s).store (byteEntry s))) := by
  have hend := pos_cellEnd h hc hn
  obtain ⟨hspans, hpairs, hheld⟩ := bufferOrder_store h (by simp [hc]) hr
  obtain ⟨⟨hw, -⟩, -, ⟨hbits, -⟩, ⟨hlen, -⟩, ⟨hcell, -, -, -, -, -, hspan, -, hstop⟩, -⟩ := h
  have h8 := hbits hr
  have hbyteEnd : s.byteEnd ≠ 0 := by have := hspan hr; omega
  have hcellStart : s.cellStart = s.byteEnd := hstop hr (.inr hc)
  have hlen' : (s.tg ++ [byteEntry s]).length ≤ 7 := by rw [List.length_append]; exact Nat.succ_le_succ hlen
  by_cases h7 : ((lastTick .stop s.cellVal s).store (byteEntry s)).tg.length = 7
  · rw [flushIfPending_of_eq h7, flushTelegram_eq]
    exact (blockInv_hunt_iff rfl).mpr ⟨hw, rfl, rfl, ⟨.inl h8, iff_of_true h8 hbyteEnd⟩,
      ⟨Nat.zero_le 6, nofun, List.Pairwise.nil⟩, Nat.le_succ_of_le hcell, nofun⟩
  · rw [flushIfPending_of_ne h7]
    refine (blockInv_hunt_iff rfl).mpr ⟨hw, rfl, rfl, ⟨.inl h8, iff_of_true h8 hbyteEnd⟩,
      ⟨Nat.le_of_lt_succ (lt_of_le_of_ne hlen' h7), hspans, hpairs⟩, Nat.le_succ_of_le hcell, fun e he => ?_⟩
    have := hheld e he
    change e.es + 52 ≤ s.pos + 1
    omega

/-! ### The selected transition -/

/-- R165 to R173: where a sample is presented, the transition selected goes on and keeps the invariant. -/
theorem blockInv_exec_sample {p : PortIn} {b : Level} (h : BlockInv s) (hp : p.symbol = .sample b)
    (hrun : s.ctl ≠ .halt) : ∃ t, exec (transitionOf s p) s = .next t ∧ BlockInv t := by
  have hnot (hn : s.skipCnt.toNat ≠ 1) : s.last = false := Bool.eq_false_iff.mpr (hn ∘ last_iff.mp)
  cases hc : s.ctl with
  | hunt =>
    cases b with
    | true => exact ⟨_, by simp only [transitionOf, hp, hc]; rfl, blockInv_huntMiss h hc⟩
    | false =>
      have hrole : (firstTick false s).withRole .start = firstTick false s := by
        rw [← ((blockInv_hunt_iff hc).mp h).2.1]; rfl
      refine ⟨_, by simp only [transitionOf, hp, hc]; rfl, ?_⟩
      rw [hrole]
      exact blockInv_firstTick h (.inl ⟨hc, rfl⟩)
  | first => exact ⟨_, by simp only [transitionOf, hp, hc]; rfl, blockInv_firstTick h (.inr hc)⟩
  | skipLow =>
    by_cases hn : s.skipCnt.toNat = 1
    · exact ⟨_, by simp only [transitionOf, hp, hc, last_iff.mpr hn]; rfl, blockInv_lowLast h hc hn⟩
    · exact ⟨_, by simp only [transitionOf, hp, hc, hnot hn]; rfl, blockInv_skipTick h (.inl hc) hn⟩
  | skipHigh =>
    by_cases hn : s.skipCnt.toNat = 1
    · cases hr : s.role with
      | start => exact ⟨_, by simp only [transitionOf, hp, hc, hr, last_iff.mpr hn]; rfl, blockInv_endStart h hc hn hr⟩
      | data => exact ⟨_, by simp only [transitionOf, hp, hc, hr, last_iff.mpr hn]; rfl, blockInv_endData h hc hn hr⟩
      | stop =>
        have ht : transitionOf s p = .tEndStop := by simp [transitionOf, hp, hc, hr, last_iff.mpr hn]
        have hroom : s.tg.length < 7 := (selectable_iff.mp (Proofs.selectable_of_blockInv h)).1
        have hstored : appendEntry (byteEntry s) (lastTick .stop s.cellVal s) = .ok _ :=
          appendEntry_eq_ok.mpr ⟨hroom, rfl⟩
        exact ⟨_, by rw [ht]; exact congrArg (storedNext · flushIfPending) hstored, blockInv_endStop h hc hn hr⟩
    · exact ⟨_, by simp only [transitionOf, hp, hc, hnot hn]; rfl, blockInv_skipTick h (.inr hc) hn⟩
  | halt => exact absurd hc hrun

/-- R161 to R173: whatever is presented, the transition selected goes on and keeps the invariant. -/
theorem blockInv_exec_transitionOf (p : PortIn) (h : BlockInv s) :
    ∃ t, exec (transitionOf s p) s = .next t ∧ BlockInv t := by
  obtain ⟨⟨⟨hreq, -⟩, -⟩, -⟩ := id h
  by_cases hrst : p.symbol = .reset
  · exact ⟨_, by simp only [transitionOf, hrst]; rfl, blockInv_resetBlock hreq⟩
  by_cases hc : s.ctl = .halt
  · have ht : transitionOf s p = .tHalted := by
      cases hp : p.symbol with
      | reset => exact absurd hp hrst
      | _ => simp only [transitionOf, hp, hc]
    exact ⟨s, by rw [ht]; rfl, h⟩
  cases hp : p.symbol with
  | reset => exact absurd hp hrst
  | eos => exact ⟨s.raiseEndOfStream, by simp only [transitionOf, hp]; rfl, blockInv_raiseEndOfStream h⟩
  | idle => exact ⟨s, by simp only [transitionOf, hp]; rfl, h⟩
  | sample b => exact blockInv_exec_sample h hp hc

end

/-! ### The buffer records with any number of bytes held (U5, log 5) -/

section

variable {s : State}

/-- A record read from the buffers is emitted whether or not its entry is valid. -/
theorem emitFromBuffers_any {k : Nat} {r : State → Record} (h : s.ctl ≠ .halt) :
    ∃ n, emitFromBuffers k r s = .next { s with
      sink := s.sink ++ [r s], staleReads := n, result := .completed .nothing } := by
  rcases lt_or_ge k s.tg.length with hk | hk
  · exact ⟨s.staleReads, emitFromBuffers_eq h hk⟩
  · exact ⟨s.staleReads + 1, emitFromBuffers_stale h hk⟩

/-- The verdict is one of two with any buffer; both crc kinds read the same entry. -/
theorem emitCrc_any (h : s.ctl ≠ .halt) :
    ∃ n, ∀ ok lbl, emitCrc ok lbl s =
      if s.crcOk = ok then
        .next { s with sink := s.sink ++ [fieldRecord 5 lbl s], staleReads := n, result := .completed .nothing }
      else .next { s with staleReads := n, result := .notPerformed } := by
  rcases lt_or_ge 5 s.tg.length with hk | hk
  · exact ⟨s.staleReads, fun _ _ => emitCrc_eq h hk⟩
  · have hv : s.entryValid 5 = false := Bool.eq_false_iff.mpr fun hv => Nat.not_lt.mpr hk (entryValid_iff.mp hv)
    refine ⟨s.staleReads + 1, fun ok lbl => ?_⟩
    rw [emitCrc, operation_running h]
    simp only [hv]
    rfl

end

end Sys2Proof.Machine

/-! SUPPORT. Proofs, sixth part: the statements of `10_state.md`. -/

namespace Sys2Proof.Proofs

open Sys2Proof Sys2Proof.Machine Sys2Proof.Safety

/-- Settles O7: the block is hardwired, so the step is the selected transition, and each of the thirteen keeps the
invariant. -/
theorem stepKeepsInvariant : Obligations.StepKeepsInvariant := by
  unfold Obligations.StepKeepsInvariant
  intro s t h hstep
  obtain ⟨⟨hw, -⟩, -⟩ := id h
  rw [step_hardwired hw (selectable_of_blockInv h)] at hstep
  obtain ⟨u, hu, hinv⟩ := blockInv_exec_transitionOf (s := s.withInp s.inp.tail) s.port h
  obtain rfl : u = t := Host.Outcome.next.inj (hu.symm.trans hstep)
  exact hinv

/-- Settles O8: the reset state is what a reset makes of any block to which nothing is requested. -/
theorem resetStateMeetsInvariant : Obligations.ResetStateMeetsInvariant := by
  unfold Obligations.ResetStateMeetsInvariant
  exact blockInv_resetBlock (s := State.reset) rfl

/-- Settles O52: an entry that is not valid changes the counter of free values only, and the verdict of the crc, free or
not, is one of two. -/
theorem bufferRecordKindsRunWithAnyBuffer : Obligations.BufferRecordKindsRunWithAnyBuffer := by
  unfold Obligations.BufferRecordKindsRunWithAnyBuffer
  intro s h
  refine ⟨fun i c l hmem => ?_, ?_⟩
  · simp only [List.mem_cons, List.not_mem_nil, or_false, Prod.mk.injEq] at hmem
    rcases hmem with ⟨rfl, rfl, rfl⟩ | ⟨rfl, rfl, rfl⟩ | ⟨rfl, rfl, rfl⟩ | ⟨rfl, rfl, rfl⟩ | ⟨rfl, rfl, rfl⟩ |
      ⟨rfl, rfl, rfl⟩ | ⟨rfl, rfl, rfl⟩
    all_goals exact ⟨_, _, emitFromBuffers_any h⟩
  · obtain ⟨n, hcrc⟩ := emitCrc_any h
    refine ⟨s.tgStart 5, s.tgEnd 5, n, ?_⟩
    cases hok : s.crcOk with
    | true => exact .inl ⟨(hcrc true .goodCrc).trans (if_pos hok), (hcrc false .badCrc).trans (if_neg (by simp [hok]))⟩
    | false => exact .inr ⟨(hcrc false .badCrc).trans (if_pos hok), (hcrc true .goodCrc).trans (if_neg (by simp [hok]))⟩

end Sys2Proof.Proofs

/-! SUPPORT. Proofs, seventh part: what actions, instructions and steps do to the buffers (R53, R58). -/

namespace Sys2Proof.Machine

open Sys2Proof

/-! ### One action -/

/-- The outcome of one action performed in `s` that stored and flushed nothing: the entries are those of `s`, unless the
block was reset (R200). -/
def Run.LeavesBuffers (s : State) : Run → Prop
  | .done t | .suspended _ t | .ended t => t.tg = s.tg
  | .restarted t => t.tg = []
  | .stuck _ => False

/-- The outcome of one action, in whose state at most seven entries are held. -/
def Run.HoldsAtMostSeven : Run → Prop
  | .done t | .suspended _ t | .ended t | .restarted t => bufferWf t.tg = true
  | .stuck _ => True

theorem waitFrom_leavesBuffers (l : Level) (q : List PortIn) (s : State) : (waitFrom l q s).LeavesBuffers s := by
  have o := waitFrom_outcomes l q s
  revert o
  cases waitFrom l q s with
  | done t => exact fun ⟨_, e, _⟩ => (congrArg State.tg e :)
  | suspended b t => exact fun ⟨_, _, e⟩ => (congrArg State.tg e :)
  | ended t => exact fun ⟨_, e⟩ => (congrArg State.tg e :)
  | restarted t => exact fun e => (congrArg State.tg e :)
  | stuck f => exact id

theorem sampleFrom_leavesBuffers (q : List PortIn) (s : State) : (sampleFrom q s).LeavesBuffers s := by
  have o := sampleFrom_outcomes q s
  revert o
  cases sampleFrom q s with
  | done t => exact fun ⟨e, _⟩ => (congrArg State.tg e :)
  | suspended b t => exact fun ⟨_, e⟩ => (congrArg State.tg e :)
  | ended t => exact fun e => (congrArg State.tg e :)
  | restarted t => exact fun e => (congrArg State.tg e :)
  | stuck f => exact id

theorem skipFrom_leavesBuffers (q : List PortIn) (n : Nat) (s : State) : (skipFrom q n s).LeavesBuffers s := by
  have o := skipFrom_outcomes q n s
  revert o
  cases skipFrom q n s with
  | done t => exact fun e => (congrArg State.tg e :)
  | suspended b t => exact fun ⟨_, _, _, e⟩ => (congrArg State.tg e :)
  | ended t => exact fun ⟨_, _, e⟩ => (congrArg State.tg e :)
  | restarted t => exact fun e => (congrArg State.tg e :)
  | stuck f => exact id

/-- R53: FLUSH and APPEND are the only two actions that write the buffers. -/
theorem perform_leavesBuffers {a : Action} (hflush : a ≠ .flushIfPending) (happend : a ≠ .append) (s : State) :
    (perform a s).LeavesBuffers s := by
  cases a with
  | wait l => exact waitFrom_leavesBuffers l s.inp s
  | sample => exact sampleFrom_leavesBuffers s.inp s
  | skip n => exact skipFrom_leavesBuffers s.inp n s
  | flushIfPending => exact absurd rfl hflush
  | append => exact absurd rfl happend
  | _ => rfl

theorem Run.LeavesBuffers.holdsAtMostSeven {s : State} {x : Run} (hx : x.LeavesBuffers s) (h : bufferWf s.tg = true) :
    x.HoldsAtMostSeven := by
  cases x with
  | done t | suspended b t | ended t => exact (congrArg bufferWf hx).trans h
  | restarted t => exact congrArg bufferWf hx
  | stuck f => trivial

/-- R58: a flush empties the buffers, and an entry is stored only where one is free. -/
theorem perform_holdsAtMostSeven (a : Action) {s : State} (h : bufferWf s.tg = true) :
    (perform a s).HoldsAtMostSeven := by
  by_cases hflush : a = .flushIfPending
  · rw [hflush]
    exact flushIfPending_bufferWf h
  by_cases happend : a = .append
  · rw [happend]
    cases hstore : appendEntry (byteEntry s) s with
    | ok t =>
      simp only [perform, hstore]
      exact appendEntry_bufferWf hstore
    | error f =>
      simp only [perform, hstore]
      trivial
  exact (perform_leavesBuffers hflush happend s).holdsAtMostSeven h

/-! ### Operations -/

theorem runActions_bufferWf {r : Returns} {k : List Action} {s t : State} (h : bufferWf s.tg = true)
    (hnext : runActions r k s = .next t) : bufferWf t.tg = true := by
  induction k generalizing s with
  | nil =>
    rw [runActions_nil] at hnext
    cases hnext
    exact h
  | cons a k ih =>
    have hrun := perform_holdsAtMostSeven a h
    cases ha : perform a s with
    | done u =>
      rw [ha] at hrun
      exact ih hrun (runActions_cons_done r k ha ▸ hnext)
    | suspended b u =>
      rw [ha] at hrun
      cases (runActions_cons_suspended r k ha).symm.trans hnext
      exact hrun
    | ended u =>
      rw [ha] at hrun
      cases (runActions_cons_ended r k ha).symm.trans hnext
      exact hrun
    | restarted u =>
      rw [ha] at hrun
      cases (runActions_cons_restarted r k ha).symm.trans hnext
      exact hrun
    | stuck f => simp [runActions, ha] at hnext

/-- An operation that answers a next state was held by HALT, or performed. -/
theorem operation_eq_next {s t : State} {f : State → Host.Outcome State Fault Refusal}
    (h : operation s f = .next t) : t = s.withResult .notPerformed ∨ f s = .next t := by
  by_cases hc : s.ctl = .halt
  · rw [operation_halted hc] at h
    exact .inl (Host.Outcome.next.inj h).symm
  · exact .inr ((operation_running hc).symm.trans h)

theorem operation_runActions_bufferWf {r : Returns} {k : List Action} {s t : State} (h : bufferWf s.tg = true)
    (hnext : operation s (runActions r k) = .next t) : bufferWf t.tg = true := by
  obtain rfl | hrun := operation_eq_next hnext
  · exact h
  · exact runActions_bufferWf h hrun

/-- R145: emitting does not write the buffers. -/
theorem emitOne_tg {r : State → Record} {s t : State} (h : emitOne r s = .next t) : t.tg = s.tg := by
  by_cases hc : s.ctl = .halt
  · cases (emitOne_halted hc).symm.trans h
    rfl
  · cases (emitOne_eq hc).symm.trans h
    rfl

theorem emitFromBuffers_tg {k : Nat} {r : State → Record} {s t : State} (h : emitFromBuffers k r s = .next t) :
    t.tg = s.tg := by
  by_cases hc : s.ctl = .halt
  · cases (emitFromBuffers_halted hc).symm.trans h
    rfl
  · obtain ⟨n, e⟩ := emitFromBuffers_any (k := k) (r := r) hc
    cases e.symm.trans h
    rfl

theorem emitCrc_tg {ok : Bool} {lbl : Label} {s t : State} (h : emitCrc ok lbl s = .next t) : t.tg = s.tg := by
  by_cases hc : s.ctl = .halt
  · cases (emitCrc_halted hc).symm.trans h
    rfl
  · obtain ⟨n, e⟩ := emitCrc_any hc
    rw [e] at h
    split at h
    · cases h
      rfl
    · cases h
      rfl

/-- R133: CHECKSUM reads the buffers only. -/
theorem execChecksum_tg {s t : State} (h : execChecksum s = .next t) : t.tg = s.tg := by
  obtain rfl | hrun := operation_eq_next h
  · rfl
  · cases hrun
    split <;> rfl

theorem execFlush_bufferWf {s t : State} (h : bufferWf s.tg = true) (hnext : execFlush s = .next t) :
    bufferWf t.tg = true := by
  obtain rfl | hrun := operation_eq_next hnext
  · exact h
  · split at hrun
    · cases hrun
      exact flushTelegram_bufferWf s
    · cases hrun
      exact h

theorem execAppend_bufferWf {b : Byte} {ss es : Nat} {s t : State} (h : bufferWf s.tg = true)
    (hnext : execAppend b ss es s = .next t) : bufferWf t.tg = true := by
  obtain rfl | hrun := operation_eq_next hnext
  · exact h
  · obtain ⟨u, hu, rfl⟩ := storedNext_eq_next hrun
    exact (appendEntry_bufferWf hu :)

/-! ### Transitions, instructions and steps -/

theorem endDataIfEight_tg (s : State) : (endDataIfEight s).tg = s.tg := by
  by_cases h : s.bitIdx.toNat = 8
  · rw [endDataIfEight_of_eq h]
    rfl
  · rw [endDataIfEight_of_ne h]

/-- R173: T.END.STOP stores a byte where one entry is free, and flushes if that was the last. -/
theorem execTEndStop_bufferWf {s t : State} (hnext : execTEndStop s = .next t) : bufferWf t.tg = true := by
  obtain ⟨u, hu, rfl⟩ := storedNext_eq_next hnext
  exact flushIfPending_bufferWf (appendEntry_bufferWf hu)

theorem exec_bufferWf (i : Instr) {s t : State} (h : bufferWf s.tg = true) (hnext : exec i s = .next t) :
    bufferWf t.tg = true := by
  cases i with
  | waitlvl | sample | skip | demodStart | demodData | demodStop | expectStop | decodeByte | loop =>
    exact operation_runActions_bufferWf h hnext
  | emit =>
    unfold exec execEmit at hnext
    exact emitOne_tg hnext ▸ h
  | emitStartBit | emitDataBit | emitStopBit | emitValue => exact emitOne_tg hnext ▸ h
  | emitTelegram | emitInit | emitAddr | emitField2 | emitRequest | emitField4 | emitTerm =>
    exact emitFromBuffers_tg hnext ▸ h
  | emitGoodCrc | emitBadCrc => exact emitCrc_tg hnext ▸ h
  | checksum => exact execChecksum_tg hnext ▸ h
  | flush => exact execFlush_bufferWf h hnext
  | append => exact execAppend_bufferWf h hnext
  | reset | tReset =>
    cases hnext
    exact resetBlock_bufferWf s
  | pos | tHalted | tEos | tIdle | tHuntMiss | tHuntHit | tFirst | tLowStep | tLowLast | tHighStep | tEndStart =>
    cases hnext
    exact h
  | tEndData =>
    cases hnext
    rw [endDataIfEight_tg]
    exact h
  | tEndStop => exact execTEndStop_bufferWf hnext

theorem passFetch_tg (s : State) : (passFetch s).tg = s.tg := by
  cases hr : s.request with
  | none => rw [passFetch_tick hr, State.withInp_tg]
  | some w => rw [passFetch_request hr, State.withRequest_tg]

theorem step_bufferWf {s t : State} (h : bufferWf s.tg = true) (hnext : step s = .next t) : bufferWf t.tg = true := by
  obtain ⟨p, -, hresume⟩ | ⟨-, -, i, -, -, hexec⟩ := step_eq_next hnext
  · exact runActions_bufferWf h hresume
  · exact exec_bufferWf i (passFetch_tg s ▸ h) hexec

end Sys2Proof.Machine

/-! SUPPORT. Proofs, eighth part: the statements of `20_memory.md`. -/

namespace Sys2Proof.Proofs

open Sys2Proof Sys2Proof.Machine

/-- Settles O47: an entry is stored only where one is free, by an instruction and by the actions a step takes up. -/
theorem buffersNeverHoldMoreThanSeven : Obligations.BuffersNeverHoldMoreThanSeven := by
  unfold Obligations.BuffersNeverHoldMoreThanSeven
  exact ⟨fun i _ _ h hnext => exec_bufferWf i h hnext, fun _ _ h hnext => step_bufferWf h hnext⟩

end Sys2Proof.Proofs

/-! SUPPORT. Proofs, ninth part: laws of the decoder, its table and its codes (R83, R86, R87), of placed words (log 14), and of
the record word (R80). -/

namespace Sys2Proof

open Sys2Proof.Machine

/-! ### What the decoder answers -/

/-- A word decodes to what the row it means builds from it. -/
theorem decode_eq_ok_iff {w : InstrWord} {i : Instr} :
    decode w = .ok i ↔
      w.code < 2 ^ w.fmt.width ∧ ∃ r, (matchingRows w)[w.reading]? = some r ∧ r.build w.code w.operands = .ok i := by
  unfold decode
  by_cases hwide : 2 ^ w.fmt.width ≤ w.code
  · simp [if_pos hwide, Nat.not_lt.mpr hwide]
  · cases hrow : (matchingRows w)[w.reading]? <;> simp [if_neg hwide, Nat.not_le.mp hwide]

theorem matches_iff {r : Row} {w : InstrWord} :
    r.matches w = true ↔ r.fmt = w.fmt ∧ w.code &&& r.mask = r.pattern := by
  simp [Row.matches]

theorem mem_matchingRows {w : InstrWord} {r : Row} : r ∈ matchingRows w ↔ r ∈ table ∧ r.matches w = true :=
  List.mem_filter

/-! ### The table, format by format -/

/-- Rows of another format do not match. -/
theorem filter_matches_eq_nil {rows : List Row} {w : InstrWord} (h : ∀ r ∈ rows, r.fmt ≠ w.fmt) :
    rows.filter (·.matches w) = [] :=
  List.filter_eq_nil_iff.mpr fun r hr => by simp [Row.matches, h r hr]

theorem transitionRows_fmt : ∀ r ∈ transitionRows, r.fmt = .sel10 := by decide

theorem recordRows_fmt : ∀ r ∈ recordRows, r.fmt = .ann7 := by decide

theorem operationRows_fmt : ∀ r ∈ operationRows, r.fmt ≠ .sel10 ∧ r.fmt ≠ .ann7 := by decide

/-- Which rows match is a matter of the format and the code only. -/
theorem matchingRows_eq_bareWord (w : InstrWord) : matchingRows w = matchingRows (bareWord w.code w.fmt) := rfl

/-- R86: a code of format `ann7` has the row of EMIT, behind that of its record kind if it has one. -/
theorem matchingRows_ann7 (c : Nat) :
    matchingRows (bareWord c .ann7) = recordRows.filter (·.matches (bareWord c .ann7)) ++ [⟨.ann7, 0, 0, buildEmit⟩] := by
  have htransition : transitionRows.filter (·.matches (bareWord c .ann7)) = [] :=
    filter_matches_eq_nil fun r hr => by simp [transitionRows_fmt r hr, bareWord]
  have hoperation : operationRows.filter (·.matches (bareWord c .ann7)) = [] :=
    filter_matches_eq_nil fun r hr => (operationRows_fmt r hr).2
  simp only [matchingRows, table, List.filter_append, htransition, hoperation, List.nil_append, List.append_nil]
  simp [Row.matches, plainRow, bareWord]

/-- RESET's row has the bits of T.RESET's, and follows it. -/
theorem matchingRows_sel10 (c : Nat) :
    matchingRows (bareWord c .sel10) = transitionRows.filter (·.matches (bareWord c .sel10)) ++
      [plainRow .sel10 0x200 0x200 .reset].filter (·.matches (bareWord c .sel10)) := by
  have hrecord : recordRows.filter (·.matches (bareWord c .sel10)) = [] :=
    filter_matches_eq_nil fun r hr => by simp [recordRows_fmt r hr, bareWord]
  have hemit : [Row.mk .ann7 0x0 0x0 buildEmit].filter (·.matches (bareWord c .sel10)) = [] := rfl
  have hoperation : operationRows.filter (·.matches (bareWord c .sel10)) = [] :=
    filter_matches_eq_nil fun r hr => (operationRows_fmt r hr).1
  simp only [matchingRows, table, List.filter_append, hrecord, hemit, hoperation, List.append_nil]

/-! ### Codes and operands written and read back -/

theorem catOf_catCode (c : Category) : catOf (catCode c) = some c := by cases c <;> rfl

theorem lblOf_lblCode (l : Label) : lblOf (lblCode l) = some l := by cases l <;> rfl

theorem catCode_lt (c : Category) : catCode c < 6 := by cases c <;> decide

theorem lblCode_lt (l : Label) : lblCode l < 11 := by cases l <;> decide

theorem catCode_of_catOf {n : Nat} {c : Category} (h : catOf n = some c) : catCode c = n := by
  unfold catOf at h
  split at h <;> cases h <;> rfl

theorem lblCode_of_lblOf {n : Nat} {l : Label} (h : lblOf n = some l) : lblCode l = n := by
  unfold lblOf at h
  split at h <;> cases h <;> rfl

/-- R86, R87: EMIT's row reads the category, the label and the operands back. -/
theorem buildEmit_code (ss es : Nat) (c : Category) (l : Label) (d : Byte) :
    buildEmit (catCode c * 16 + lblCode l) [ss, es, d.toNat] = .ok (.emit ss es c l d) := by
  have hl := lblCode_lt l
  have hcat : (catCode c * 16 + lblCode l) / 16 = catCode c := by omega
  have hlbl : (catCode c * 16 + lblCode l) % 16 = lblCode l := by omega
  simp [buildEmit, hcat, hlbl, catOf_catCode, lblOf_lblCode, Nat.not_le.mpr d.isLt]

/-- R134: APPEND's row reads the byte and its span back. -/
theorem buildAppend_operands (b : Byte) (ss es : Nat) :
    buildAppend 0 [b.toNat, ss, es] = .ok (.append b ss es) := by
  simp [buildAppend, Nat.not_le.mpr b.isLt]

/-- R80: the codes of the thirteen pairs have a record kind, and no other code of a category and a label has one. -/
theorem recordRows_filter_length (c : Category) (l : Label) :
    (recordRows.filter (·.matches (bareWord (catCode c * 16 + lblCode l) .ann7))).length =
      if recordPair c l then 1 else 0 := by
  cases c <;> cases l <;> rfl

/-- The reading that an EMIT is encoded with is the place of EMIT's row (log 6). -/
theorem matchingRows_emit (ss es : Nat) (c : Category) (l : Label) (d : Byte) :
    (matchingRows (encode (.emit ss es c l d)))[(encode (.emit ss es c l d)).reading]? =
      some ⟨.ann7, 0, 0, buildEmit⟩ := by
  rw [matchingRows_eq_bareWord]
  simp only [encode, matchingRows_ann7]
  rw [List.getElem?_append_right (recordRows_filter_length c l).le, recordRows_filter_length, Nat.sub_self]
  rfl

theorem decode_encode_emit (ss es : Nat) (c : Category) (l : Label) (d : Byte) :
    decode (encode (.emit ss es c l d)) = .ok (.emit ss es c l d) :=
  decode_eq_ok_iff.mpr
    ⟨Laws.EncodeFits.emit ss es c l d, _, matchingRows_emit ss es c l d, buildEmit_code ss es c l d⟩

theorem decode_encode_append (b : Byte) (ss es : Nat) :
    decode (encode (.append b ss es)) = .ok (.append b ss es) :=
  have hrow : (matchingRows (bareWord 0 .cnt3))[0]? = some ⟨.cnt3, 0, 0, buildAppend⟩ := rfl
  decode_eq_ok_iff.mpr ⟨Laws.EncodeFits.append b ss es, _, hrow, buildAppend_operands b ss es⟩

/-- Every instruction but EMIT and APPEND has one word, or one for each value of its one operand. -/
theorem decode_encode (i : Instr) (h : i.wellFormed = true) : decode (encode i) = .ok i := by
  cases i with
  | emit ss es c l d => exact decode_encode_emit ss es c l d
  | append b ss es => exact decode_encode_append b ss es
  | waitlvl l =>
    obtain rfl : l = Config.startLevel := by simpa [Instr.wellFormed] using h
    rfl
  | skip n => cases n <;> rfl
  | tFirst v => cases v <;> rfl
  | _ => rfl

/-! ### What the rows of the table build -/

/-- What a row may build, in a word of its format: well-formed instructions, transitions from selectors only (R87), and an
EMIT with the codes that the word has. -/
def Row.Sound (r : Row) : Prop :=
  ∀ (c : Nat) (ops : List Nat) (i : Instr), r.build c ops = .ok i →
    i.wellFormed = true ∧ (isTransition i = true → r.fmt = .sel10) ∧
    ∀ ss es k l d, i = .emit ss es k l d → r.fmt = .ann7 ∧ c = catCode k * 16 + lblCode l

/-- The instructions that any word of the format may carry. -/
def plainFor (fmt : Format) : Instr → Bool
  | .emit .. => false
  | i => i.wellFormed && (!isTransition i || fmt == .sel10)

theorem plainFor_sound {fmt : Format} {i : Instr} (h : plainFor fmt i = true) (c : Nat) :
    i.wellFormed = true ∧ (isTransition i = true → fmt = .sel10) ∧
    ∀ ss es k l d, i = .emit ss es k l d → fmt = .ann7 ∧ c = catCode k * 16 + lblCode l := by
  cases i with
  | emit => cases h
  | _ => simp_all [plainFor, isTransition]

theorem plainRow_sound (fmt : Format) (mask pattern : Nat) {i : Instr} (h : plainFor fmt i = true) :
    (plainRow fmt mask pattern i).Sound := by
  intro c ops j hj
  dsimp only [plainRow] at hj
  split_ifs at hj
  cases hj
  exact plainFor_sound h c

theorem bitRow_sound (fmt : Format) (mask pattern : Nat) {f : Bool → Instr} (h : ∀ b, plainFor fmt (f b) = true) :
    (bitRow fmt mask pattern f).Sound := by
  intro c ops j hj
  dsimp only [bitRow] at hj
  split_ifs at hj
  cases hj
  exact plainFor_sound (h _) c

/-- R103: POS is built, whatever the control state. -/
theorem buildPos_sound (fmt : Format) (mask pattern : Nat) : (Row.mk fmt mask pattern buildPos).Sound := by
  intro c ops j hj
  dsimp only [buildPos] at hj
  split_ifs at hj
  cases hj
  exact plainFor_sound rfl c

/-- R134: APPEND is built, whatever the byte and its span. -/
theorem buildAppend_sound (fmt : Format) (mask pattern : Nat) : (Row.mk fmt mask pattern buildAppend).Sound := by
  intro c ops j hj
  dsimp only [buildAppend] at hj
  split_ifs at hj
  cases hj
  exact plainFor_sound rfl c

/-- R84, R86: EMIT's row reads the two codes off the word, and no code that is never used. -/
theorem buildEmit_sound (mask pattern : Nat) : (Row.mk .ann7 mask pattern buildEmit).Sound := by
  intro c ops j hj
  dsimp only [buildEmit] at hj
  split at hj
  · next cat lbl hcat hlbl =>
    split_ifs at hj
    cases hj
    refine ⟨rfl, nofun, ?_⟩
    rintro ss es k l d hemit
    obtain ⟨-, -, rfl, rfl, -⟩ := Instr.emit.inj hemit
    rw [catCode_of_catOf hcat, lblCode_of_lblOf hlbl]
    exact ⟨rfl, by omega⟩
  · cases hj

theorem transitionRows_sound : ∀ r ∈ transitionRows, r.Sound := by
  simp [transitionRows, plainRow_sound, bitRow_sound, plainFor, Instr.wellFormed]

theorem recordRows_sound : ∀ r ∈ recordRows, r.Sound := by
  simp [recordRows, plainRow_sound, plainFor, Instr.wellFormed, isTransition]

theorem operationRows_sound : ∀ r ∈ operationRows, r.Sound := by
  have hwaitlvl := plainRow_sound .ctl3 0x7 0x0 (i := .waitlvl Config.startLevel) rfl
  simp only [operationRows, List.forall_mem_cons]
  refine ⟨hwaitlvl, ?_⟩
  simp [plainRow_sound, bitRow_sound, buildPos_sound, buildAppend_sound, plainFor, Instr.wellFormed, isTransition]

theorem table_sound : ∀ r ∈ table, r.Sound := by
  intro r hr
  simp only [table, List.mem_append, List.mem_singleton] at hr
  obtain (((hr | rfl) | hr) | rfl) | hr := hr
  · exact transitionRows_sound r hr
  · exact plainRow_sound .sel10 0x200 0x200 rfl
  · exact recordRows_sound r hr
  · exact buildEmit_sound 0x0 0x0
  · exact operationRows_sound r hr

/-- What the decoder gives is what a row of the word's format may build. -/
theorem decode_sound {w : InstrWord} {i : Instr} (h : decode w = .ok i) :
    i.wellFormed = true ∧ (isTransition i = true → w.fmt = .sel10) ∧
    ∀ ss es k l d, i = .emit ss es k l d → w.fmt = .ann7 ∧ w.code = catCode k * 16 + lblCode l := by
  obtain ⟨-, r, hr, hbuild⟩ := decode_eq_ok_iff.mp h
  obtain ⟨htable, hmatches⟩ := mem_matchingRows.mp (List.mem_of_getElem? hr)
  exact (matches_iff.mp hmatches).1 ▸ table_sound r htable _ _ _ hbuild

/-! ### Exactly one row matches a selector (R83) -/

/-- R83: no selector has the bits of two rows, since any two examine a common bit and want different values of it. -/
theorem transitionRows_disjoint :
    transitionRows.Pairwise fun r r' => r.pattern &&& r'.mask ≠ r'.pattern &&& r.mask := by decide

/-- Two rows that match one word agree in the bits that both examine. -/
theorem pattern_and_mask_eq {r r' : Row} {w : InstrWord} (h : r.matches w = true) (h' : r'.matches w = true) :
    r.pattern &&& r'.mask = r'.pattern &&& r.mask := by
  rw [← (matches_iff.mp h).2, ← (matches_iff.mp h').2, Nat.and_assoc, Nat.and_assoc, Nat.and_comm r.mask]

/-- In a list whose entries are pairwise related, with no two entries related, there is one entry at most. -/
theorem eq_singleton_of_pairwise {α : Type} {R : α → α → Prop} {l : List α} {a : α} (hR : l.Pairwise R)
    (h : ∀ x ∈ l, ∀ y ∈ l, ¬ R x y) (ha : a ∈ l) : l = [a] := by
  match l, ha with
  | [x], ha => rw [List.mem_singleton.mp ha]
  | x :: y :: l, _ => exact absurd (List.rel_of_pairwise_cons hR List.mem_cons_self) (h x (by simp) y (by simp))

/-- A transition row that matches a word is the only one. -/
theorem transitionRows_filter_eq {r : Row} {w : InstrWord} (hr : r ∈ transitionRows) (h : r.matches w = true) :
    transitionRows.filter (·.matches w) = [r] :=
  eq_singleton_of_pairwise (transitionRows_disjoint.filter _)
    (fun _ hx _ hy hxy => hxy (pattern_and_mask_eq (List.mem_filter.mp hx).2 (List.mem_filter.mp hy).2))
    (List.mem_filter.mpr ⟨hr, h⟩)

/-- The first row that matches a selector is a transition's. -/
theorem matchingRows_sel10_head {c : Nat} {r : Row} (h : (matchingRows (bareWord c .sel10))[0]? = some r) :
    r ∈ transitionRows ∧ r.matches (bareWord c .sel10) = true := by
  rw [matchingRows_sel10] at h
  cases hrows : transitionRows.filter (·.matches (bareWord c .sel10)) with
  | cons x rows =>
    obtain rfl : x = r := by simpa [hrows] using h
    exact List.mem_filter.mp (hrows ▸ List.mem_cons_self)
  | nil =>
    rw [hrows, List.nil_append] at h
    obtain ⟨hr, hmatches⟩ := List.mem_filter.mp (List.mem_of_getElem? h)
    obtain rfl := List.mem_singleton.mp hr
    exact absurd hmatches (List.filter_eq_nil_iff.mp hrows (plainRow .sel10 0x200 0x200 .tReset) List.mem_cons_self)

/-- A selector decodes to the transition of the row that it matches. -/
theorem decode_selector_iff {c : Nat} {i : Instr} :
    decode (bareWord c .sel10) = .ok i ↔
      c < 2 ^ 10 ∧ ∃ r ∈ transitionRows, r.matches (bareWord c .sel10) = true ∧ r.build c [] = .ok i := by
  rw [decode_eq_ok_iff]
  refine and_congr_right fun _ => ⟨?_, ?_⟩
  · rintro ⟨r, hr, hbuild⟩
    obtain ⟨hrow, hmatches⟩ := matchingRows_sel10_head hr
    exact ⟨r, hrow, hmatches, hbuild⟩
  · rintro ⟨r, hr, hmatches, hbuild⟩
    refine ⟨r, ?_, hbuild⟩
    rw [matchingRows_sel10, transitionRows_filter_eq hr hmatches]
    rfl

/-- R83: the selector's transition is found, so a row matches, and no other one does. -/
theorem one_transitionRow_matches (s : State) (p : PortIn) :
    (transitionRows.filter (·.matches (selectorWord s p))).length = 1 := by
  obtain ⟨-, r, hr, hmatches, -⟩ := decode_selector_iff.mp (decode_selectorWord s p)
  exact congrArg List.length (transitionRows_filter_eq hr hmatches)

/-! ### What a row examines of a selector -/

/-- R83: what a row examines: `rst` alone; or, without the role, enough of `ctl` that it is the code of a control state; or all
of `ctl` and `role`, in the skip of a cell's last tick. -/
theorem transitionRows_examine : ∀ r ∈ transitionRows,
    r.mask % 2 ^ 7 = 0 ∨
      r.mask / 2 ^ 2 % 2 ^ 2 = 0 ∧
        (r.mask / 2 ^ 6 % 2 ^ 1 = 1 ∧ r.pattern / 2 ^ 6 % 2 ^ 1 = 0 ∨
          r.mask / 2 ^ 4 % 2 ^ 3 = 7 ∧ r.pattern / 2 ^ 4 % 2 ^ 3 = 4) ∨
      r.mask / 2 ^ 2 % 2 ^ 5 = 31 ∧ r.pattern / 2 ^ 4 % 2 ^ 3 = 3 ∧ r.pattern / 2 ^ 2 % 2 ^ 2 < 3 := by decide

/-- A field that a row examines whole is the pattern's. -/
theorem field_eq_of_and_eq {c m p k n : Nat} (h : c &&& m = p) (hm : m / 2 ^ k % 2 ^ n = 2 ^ n - 1) :
    c / 2 ^ k % 2 ^ n = p / 2 ^ k % 2 ^ n := by
  rw [← h, Nat.and_div_two_pow, Nat.and_mod_two_pow, hm, Nat.and_two_pow_sub_one_eq_mod, Nat.mod_mod]

/-- Codes that differ below the bits of a mask only. -/
theorem and_eq_and_of_div_eq {a b m k : Nat} (hm : m % 2 ^ k = 0) (h : a / 2 ^ k = b / 2 ^ k) : a &&& m = b &&& m := by
  rw [← Nat.div_add_mod (a &&& m) (2 ^ k), ← Nat.div_add_mod (b &&& m) (2 ^ k)]
  simp only [Nat.and_div_two_pow, Nat.and_mod_two_pow, hm, h, Nat.and_zero]

/-- Codes that differ in the role only, which the mask leaves out. -/
theorem and_eq_and_of_off_role {a b m : Nat} (hm : m / 2 ^ 2 % 2 ^ 2 = 0) (hhigh : a / 2 ^ 4 = b / 2 ^ 4)
    (hlow : a % 2 ^ 2 = b % 2 ^ 2) : a &&& m = b &&& m := by
  have hdiv : (a &&& m) / 2 ^ 4 = (b &&& m) / 2 ^ 4 := by rw [Nat.and_div_two_pow, Nat.and_div_two_pow, hhigh]
  have hmod : (a &&& m) % 2 ^ 2 = (b &&& m) % 2 ^ 2 := by rw [Nat.and_mod_two_pow, Nat.and_mod_two_pow, hlow]
  have hrole (x : Nat) : (x &&& m) / 2 ^ 2 % 2 ^ 2 = 0 := by
    rw [Nat.and_div_two_pow, Nat.and_mod_two_pow, hm, Nat.and_zero]
  have ha := hrole a
  have hb := hrole b
  omega

/-- R86: a transition's row reads nothing of the code but bit 0, the level of T.FIRST. -/
theorem transitionRows_build {r : Row} {a b : Nat} (hr : r ∈ transitionRows) (h : a % 2 = b % 2) :
    r.build a [] = r.build b [] := by
  revert r
  simp [transitionRows, plainRow, bitRow, h]

end Sys2Proof

namespace Sys2Proof.Machine

open Sys2Proof

/-! ### A selector that has been placed (log 14) -/

theorem last_countFor (k : Ctl) (b : Bool) : (countFor k b == 1) = b := by
  cases k <;> cases b <;> rfl

section

variable (c : Nat) (s : State)

theorem placeSelector_ctl : (placeSelector c s).ctl = (ctlOf (c / 16 % 8)).getD s.ctl := rfl

theorem placeSelector_role :
    (placeSelector c s).role = allowedRole (placeSelector c s).ctl ((roleOf (c / 4 % 4)).getD s.role) := rfl

theorem placeSelector_skipCnt : (placeSelector c s).skipCnt = countFor (placeSelector c s).ctl (c.testBit 1) := rfl

/-- R83: the port and the count have the bits of the code. -/
theorem selectorCode_placeSelector : selectorCode (placeSelector c s) (placeSelector c s).port =
    c / 128 % 8 * 128 + ctlCode (placeSelector c s).ctl * 16 + roleCode (placeSelector c s).role * 4 + c % 4 := by
  have hport : (placeSelector c s).port = ⟨c.testBit 9, c.testBit 8, c.testBit 7, c.testBit 0⟩ := rfl
  have hlast : (placeSelector c s).last = c.testBit 1 := last_countFor _ _
  simp only [selectorCode, hport, hlast, Nat.toNat_testBit]
  omega

/-- R176: a bit that the selected row does not examine has a value that is allowed. -/
theorem placeSelector_selectable : (placeSelector c s).selectable = true := by
  rw [selectable_iff, placeSelector_skipCnt, placeSelector_role]
  have hheld : (placeSelector c s).tg.length < 7 := by
    have htake : (placeSelector c s).tg = s.tg.take 6 := rfl
    rw [htake, List.length_take]
    omega
  refine ⟨hheld, ?_, ?_, ?_, ?_⟩ <;> intro hctl <;> rw [hctl]
  · rfl
  · cases (roleOf (c / 4 % 4)).getD s.role <;> decide
  · cases c.testBit 1 <;> decide
  · cases c.testBit 1 <;> decide

end

theorem ctlCode_getD_ctlOf {n : Nat} (h : n < 5) (k : Ctl) : ctlCode ((ctlOf n).getD k) = n := by
  interval_cases n <;> rfl

theorem roleCode_getD_roleOf {n : Nat} (h : n < 3) (r : Role) : roleCode ((roleOf n).getD r) = n := by
  interval_cases n <;> rfl

theorem ctlCode_lt (k : Ctl) : ctlCode k < 5 := by cases k <;> decide

theorem roleCode_lt (r : Role) : roleCode r < 3 := by cases r <;> decide

/-- The row that a selector matches is matched by the selector of the state in which it is placed. -/
theorem selectorCode_placeSelector_and {r : Row} {c : Nat} (s : State) (hr : r ∈ transitionRows) (hc : c < 2 ^ 10)
    (h : c &&& r.mask = r.pattern) :
    selectorCode (placeSelector c s) (placeSelector c s).port &&& r.mask = r.pattern := by
  rw [selectorCode_placeSelector, ← h]
  have hctlLt := ctlCode_lt (placeSelector c s).ctl
  have hroleLt := roleCode_lt (placeSelector c s).role
  obtain hrst | ⟨hrole, hctl⟩ | ⟨hall, hctl, hrole⟩ := transitionRows_examine r hr
  · exact and_eq_and_of_div_eq hrst (by omega)
  · have hused : c / 16 % 8 < 5 := by
      obtain ⟨hmask, hpattern⟩ | ⟨hmask, hpattern⟩ := hctl
      all_goals
        have hfield := field_eq_of_and_eq h hmask
        omega
    have hcode : ctlCode (placeSelector c s).ctl = c / 16 % 8 := ctlCode_getD_ctlOf hused s.ctl
    exact and_eq_and_of_off_role hrole (by omega) (by omega)
  · have hfields := field_eq_of_and_eq h hall
    have hskip : c / 16 % 8 = 3 := by omega
    have hcode : (placeSelector c s).ctl = .skipHigh := by rw [placeSelector_ctl, hskip]; rfl
    have hroleCode : roleCode (placeSelector c s).role = c / 4 % 4 := by
      rw [placeSelector_role, hcode]
      exact roleCode_getD_roleOf (by omega) s.role
    rw [hroleCode, hcode]
    exact congrArg (· &&& r.mask) (by simp only [ctlCode]; omega)

/-- A selector that has been placed decodes as it did. -/
theorem decode_placeSelector {c : Nat} {i : Instr} (s : State) (h : decode (bareWord c .sel10) = .ok i) :
    decode (fetchWord (placeSelector c s)) = .ok i := by
  obtain ⟨hc, r, hr, hmatches, hbuild⟩ := decode_selector_iff.mp h
  have hcode := selectorCode_placeSelector c s
  have hctlLt := ctlCode_lt (placeSelector c s).ctl
  have hroleLt := roleCode_lt (placeSelector c s).role
  have hbit : selectorCode (placeSelector c s) (placeSelector c s).port % 2 = c % 2 := by omega
  obtain ⟨hfmt, hand⟩ := matches_iff.mp hmatches
  have hplaced : r.matches (selectorWord (placeSelector c s) (placeSelector c s).port) = true :=
    matches_iff.mpr ⟨hfmt, selectorCode_placeSelector_and s hr hc hand⟩
  exact decode_selector_iff.mpr ⟨by omega, r, hr, hplaced, (transitionRows_build hr hbit).trans hbuild⟩

/-! ### A requested word that has been placed (log 14) -/

/-- Every word but a selector is placed in the request slot. -/
theorem placeWord_request {w : InstrWord} (s : State) (h : w.fmt ≠ .sel10) :
    (placeWord w s).request = some w ∧ (placeWord w s).pending = s.pending := by
  unfold placeWord
  split
  · next hfmt _ => exact absurd hfmt h
  all_goals exact ⟨rfl, rfl⟩

/-- A bare table word that is read is a word of one of the formats tried, reading 0. -/
theorem decodeTableWord_eq_some {nbits w : Nat} {i : Instr} (h : decodeTableWord nbits w = some i) :
    ∃ f, tableWord nbits w = some (bareWord w f) ∧ decode (bareWord w f) = .ok i := by
  obtain ⟨x, hx, hdecode⟩ := Option.bind_eq_some_iff.mp h
  obtain ⟨f, -, rfl⟩ := List.mem_map.mp (List.mem_of_find?_eq_some hx)
  refine ⟨f, hx, ?_⟩
  cases hd : decode (bareWord w f) with
  | ok j => rw [hd] at hdecode; cases hdecode; rfl
  | error e => rw [hd] at hdecode; cases hdecode

/-- A step in which nothing is taken up performs what it decodes, unless R176 or log 20 refuses it. -/
theorem step_eq_exec {s : State} {i : Instr} (hp : resumption s = none) (hu : undefinedSelector s = false)
    (hd : decode (fetchWord s) = .ok i) (hr : s.request = none ∨ isTransition i = false) :
    step s = exec i (passFetch s) := by
  have hnotRequested : (s.request.isSome && isTransition i) = false := by
    obtain hr | hr := hr <;> simp [hr]
  simp [step, hp, hu, hd, hnotRequested]

theorem placeSelector_fetched {c : Nat} {i : Instr} (s : State) (hp : s.pending = none)
    (h : decode (bareWord c .sel10) = .ok i) :
    decode (fetchWord (placeSelector c s)) = .ok i ∧
      step (placeSelector c s) = exec i (passFetch (placeSelector c s)) := by
  have hd := decode_placeSelector s h
  exact ⟨hd, step_eq_exec (resumption_none hp) (undefinedSelector_false (placeSelector_selectable c s)) hd (.inl rfl)⟩

theorem placeWord_fetched {w : InstrWord} {i : Instr} (s : State) (hp : s.pending = none) (hf : w.fmt ≠ .sel10)
    (h : decode w = .ok i) :
    decode (fetchWord (placeWord w s)) = .ok i ∧ step (placeWord w s) = exec i (passFetch (placeWord w s)) := by
  obtain ⟨hrequest, hpending⟩ := placeWord_request s hf
  obtain ⟨-, htransition, -⟩ := decode_sound h
  have hd : decode (fetchWord (placeWord w s)) = .ok i := by rw [fetchWord_request hrequest, h]
  have hoperation : isTransition i = false := Bool.eq_false_iff.mpr fun hi => hf (htransition hi)
  exact ⟨hd, step_eq_exec (resumption_none (hpending.trans hp)) (undefinedSelector_request hrequest) hd (.inr hoperation)⟩

/-! ### The record word (R80) -/

theorem word_eq (w : Nat) (r : Record) :
    r.word w = (r.ss * 2 ^ w + r.es) * 2 ^ 15 + (catCode r.cat * 2 ^ 12 + lblCode r.lbl * 2 ^ 8 + r.data.toNat) := by
  unfold Record.word
  ring

/-- The two positions as one number of `2 * w` bits. -/
theorem span_lt {w ss es : Nat} (hs : ss < 2 ^ w) (he : es < 2 ^ w) : ss * 2 ^ w + es < 2 ^ (2 * w) :=
  calc
    ss * 2 ^ w + es < (ss + 1) * 2 ^ w := by rw [Nat.add_mul]; omega
    _ ≤ 2 ^ w * 2 ^ w := Nat.mul_le_mul_right _ hs
    _ = 2 ^ (2 * w) := by rw [← Nat.pow_add, two_mul]

end Sys2Proof.Machine

/-! SUPPORT. Proofs, tenth part: the statements of `30_encoding.md`. -/

namespace Sys2Proof.Proofs

open Sys2Proof Sys2Proof.Machine

/-- Settles O1: the row of each instruction is found at the reading it is encoded with, and builds it from its operands. -/
theorem decodeEncodeRoundTrip : Obligations.DecodeEncodeRoundTrip := by
  unfold Obligations.DecodeEncodeRoundTrip
  exact decode_encode

/-- Settles O2: the word's row is in the table, and each row of the table builds what its format may carry. -/
theorem decodedInstructionsAreWellFormed : Obligations.DecodedInstructionsAreWellFormed := by
  unfold Obligations.DecodedInstructionsAreWellFormed
  intro w i h
  obtain ⟨hwf, -, hemit⟩ := decode_sound h
  exact ⟨hwf, (decode_eq_ok_iff.mp h).1, hemit⟩

/-- Settles O3: any two rows differ in a bit that both examine, and the laws' transition is the table's, by the symbol presented
and then by the control state. -/
theorem selectorDecodesPerTransitionTable : Obligations.SelectorDecodesPerTransitionTable := by
  unfold Obligations.SelectorDecodesPerTransitionTable
  intro s p
  refine ⟨one_transitionRow_matches s p, ?_⟩
  rw [decode_selectorWord]
  obtain ⟨rst, eos, valid, pin⟩ := p
  unfold transitionOf PortIn.symbol
  cases rst with
  | true => rfl
  | false =>
    cases s.ctl with
    | halt => cases eos <;> cases valid <;> rfl
    | skipHigh => cases eos <;> cases valid <;> cases s.role <;> simp [State.last]
    | hunt | first | skipLow => cases eos <;> cases valid <;> simp [State.last]

/-- Settles O6: a selector placed in the registers keeps the bits that its row examines, and another word is the request. -/
theorem placedTableWordIsFetched : Obligations.PlacedTableWordIsFetched := by
  unfold Obligations.PlacedTableWordIsFetched
  intro s nbits w i h
  obtain ⟨f, hword, hdecode⟩ := decodeTableWord_eq_some h
  have hplaced : s.withFetchWord nbits w = placeWord (bareWord w f) (s.withPending none) := by
    simp only [State.withFetchWord, hword]
  rw [hplaced]
  by_cases hf : f = .sel10
  · subst hf
    exact placeSelector_fetched (s.withPending none) rfl hdecode
  · exact placeWord_fetched (s.withPending none) rfl hf hdecode

/-- Settles O53: the word is the span above 15 bits, and the span is `ss` above `w` bits. -/
theorem recordWordFields : Obligations.RecordWordFields := by
  unfold Obligations.RecordWordFields
  intro w r hss hes
  have hlbl := lblCode_lt r.lbl
  have hcat := catCode_lt r.cat
  have hdata := r.data.isLt
  have hspan := span_lt hss hes
  have hend : (r.ss * 2 ^ w + r.es) % 2 ^ w = r.es := by rw [Nat.mul_add_mod', Nat.mod_eq_of_lt hes]
  have hstart : (r.ss * 2 ^ w + r.es) / 2 ^ w = r.ss := by
    rw [Nat.mul_comm, Nat.mul_add_div (by positivity), Nat.div_eq_of_lt hes, Nat.add_zero]
  rw [word_eq, Nat.pow_add, Nat.pow_add, Nat.mul_comm (2 ^ w) (2 ^ 15), ← Nat.div_div_eq_div_mul]
  generalize r.ss * 2 ^ w + r.es = span at *
  have hhead : (span * 2 ^ 15 + (catCode r.cat * 2 ^ 12 + lblCode r.lbl * 2 ^ 8 + r.data.toNat)) / 2 ^ 15 = span := by
    omega
  rw [hhead]
  exact ⟨by omega, by omega, by omega, by omega, hend, hstart⟩

/-- Settles O4: each word is closed, and the decoder computes. -/
theorem specWordsDecode : Obligations.SpecWordsDecode := by
  unfold Obligations.SpecWordsDecode
  exact ⟨rfl, rfl, rfl, rfl, rfl, rfl, rfl, rfl, rfl, rfl⟩

end Sys2Proof.Proofs

/-! SUPPORT. Proofs, eleventh part: the cursor operations over a stretch of samples and idle steps, and over the symbol that
follows it. -/

namespace Sys2Proof.Machine

open Sys2Proof Sys2Proof.Safety

/-! ### The stretch (R160) -/

/-- The first step of a stretch that carries levels brings none of them, or the first. -/
theorem carries_cons {p : PortIn} {q : List PortIn} {ls : List Level} (h : Carries (p :: q) ls) :
    (p.symbol = .idle ∧ Carries q ls) ∨ ∃ b ls', p.symbol = .sample b ∧ ls = b :: ls' ∧ Carries q ls' := by
  obtain ⟨hall, rfl⟩ := h
  obtain ⟨hp, hq⟩ := Bool.and_eq_true_iff.mp hall
  obtain ⟨hrst, heos⟩ : p.rst = false ∧ p.eos = false := by simpa [sampleOrIdle] using hp
  cases hv : p.valid with
  | false => exact .inl ⟨by simp [PortIn.symbol, hrst, heos, hv], hq, by simp [levels, hv]⟩
  | true =>
    exact .inr ⟨p.pin, levels q, by simp [PortIn.symbol, hrst, heos, hv], by simp [levels, hv], hq, rfl⟩

/-- A stretch that ends in its last sample is a stretch that carries the levels before it, and that sample. -/
theorem delivers_concat {s : State} {ls : List Level} {rest : List PortIn} (h : Delivers s ls rest) :
    ∃ q p b ls', s.inp = q ++ p :: rest ∧ p.symbol = .sample b ∧ ls = ls' ++ [b] ∧ Carries q ls' := by
  obtain ⟨_, hs, ⟨hall, rfl⟩, p, hlast, hp⟩ := h
  obtain ⟨q, rfl⟩ := List.getLast?_eq_some_iff.mp hlast
  have hvalid : p.valid = true := by
    unfold PortIn.symbol at hp
    split_ifs at hp
    assumption
  rw [List.all_append] at hall
  exact ⟨q, p, p.pin, levels q, by simpa using hs, hp, by simp [levels, hvalid],
    (Bool.and_eq_true_iff.mp hall).1, rfl⟩

/-! ### What each cursor operation does over a stretch -/

/-- R100: samples of the other level are consumed, and WAITLVL waits on. -/
theorem waitFrom_carries {l : Level} {q : List PortIn} {k : Nat} (s : State)
    (h : Carries q (List.replicate k (!l))) :
    waitFrom l q s = .suspended (.wait l) { s with pos := s.pos + k, inp := [] } := by
  induction q generalizing k s with
  | nil =>
    obtain rfl : k = 0 := (List.replicate_eq_nil_iff _).mp h.2.symm
    rfl
  | cons p q ih =>
    obtain ⟨hp, hq⟩ | ⟨b, ls, hp, hls, hq⟩ := carries_cons h
    · simpa only [waitFrom, hp] using ih s hq
    · cases k with
      | zero => cases hls
      | succ k =>
        obtain ⟨rfl, rfl⟩ := List.cons.inj hls
        simpa [waitFrom, hp, State.advance, Nat.add_assoc, Nat.add_comm 1] using ih s.advance hq

/-- R101: without a sample SAMPLE waits on. -/
theorem sampleFrom_carries {q : List PortIn} (s : State) (h : Carries q []) :
    sampleFrom q s = .suspended .sample (s.withInp []) := by
  induction q with
  | nil => rfl
  | cons p q ih =>
    obtain ⟨hp, hq⟩ | ⟨b, ls, -, hls, -⟩ := carries_cons h
    · simpa only [sampleFrom, hp] using ih hq
    · cases hls

/-- R102: with fewer samples than its ticks SKIP consumes them all, and owes the remainder. -/
theorem skipFrom_carries {q : List PortIn} {ls : List Level} {n : Nat} (s : State) (h : Carries q ls)
    (hn : ls.length < n) :
    skipFrom q n s = .suspended (.skip (n - ls.length))
      { s with pos := s.pos + ls.length, skipCnt := BitVec.ofNat 6 (n - ls.length), inp := [] } := by
  obtain ⟨n, rfl⟩ := Nat.exists_eq_add_of_le' (Nat.one_le_of_lt hn)
  induction q generalizing ls n s with
  | nil =>
    obtain ⟨-, rfl⟩ := h
    rfl
  | cons p q ih =>
    obtain ⟨hp, hq⟩ | ⟨b, ls, hp, rfl, hq⟩ := carries_cons h
    · simpa only [skipFrom, hp] using ih s hq n hn
    · obtain ⟨n, rfl⟩ := Nat.exists_eq_add_of_le' (Nat.one_le_of_lt (Nat.lt_of_succ_lt_succ hn))
      simpa [skipFrom, hp, State.advance, Nat.add_assoc, Nat.add_comm 1] using
        ih s.advance hq n (Nat.lt_of_succ_lt_succ hn)

theorem perform_wait_carries {l : Level} {q : List PortIn} {k : Nat} (s : State) (h : Carries q (List.replicate k (!l))) :
    perform (.wait l) (s.withInp q) = .suspended (.wait l) { s with pos := s.pos + k, inp := [] } :=
  waitFrom_carries (s.withInp q) h

theorem perform_sample_carries {q : List PortIn} (s : State) (h : Carries q []) :
    perform .sample (s.withInp q) = .suspended .sample (s.withInp []) := sampleFrom_carries (s.withInp q) h

theorem perform_skip_carries {q : List PortIn} {ls : List Level} {n : Nat} (s : State) (h : Carries q ls)
    (hn : ls.length < n) :
    perform (.skip n) (s.withInp q) = .suspended (.skip (n - ls.length))
      { s with pos := s.pos + ls.length, skipCnt := BitVec.ofNat 6 (n - ls.length), inp := [] } :=
  skipFrom_carries (s.withInp q) h hn

/-! ### What follows the stretch -/

section

variable {a b : Action} {s t : State} {p : PortIn} {q x : List PortIn} {r : Returns} {k : List Action}

/-- R104: an action that a first part of the input suspends goes on with what follows. -/
theorem perform_resumed (hs : s.inp = q ++ x) (h : perform a (s.withInp q) = .suspended b t) :
    perform a s = perform b (t.withInp x) := by
  have hopen : a = .openLevel → (s.withInp q).inp ≠ [] := by
    rintro rfl
    cases h
  calc
    perform a s = perform a ((s.withInp q).withInp (q ++ x)) := by rw [← hs]; rfl
    _ = (perform a (s.withInp q)).deliver x := perform_append x hopen
    _ = perform b (t.withInp x) := by rw [h]; rfl

/-- The action waits for a sample; a SKIP has the ticks it owes in `skip_cnt`. -/
def Awaits (s : State) : Action → Prop
  | .wait _ | .sample => True
  | .skip n => 0 < n ∧ s.skipCnt = BitVec.ofNat 6 n
  | _ => False

theorem awaits_of_suspended (h : perform a s = .suspended b t) : Awaits t b := by
  obtain ⟨-, ⟨l, rfl, rfl⟩ | ⟨rfl, rfl⟩ | ⟨n, -, -, rfl, -, -⟩⟩ := perform_suspended h
  · trivial
  · trivial
  · have o := skipFrom_outcomes s.inp n s
    rw [show skipFrom s.inp n s = _ from h] at o
    obtain ⟨j, hj, rfl, e⟩ := o
    exact ⟨Nat.sub_pos_of_lt hj, by rw [e]⟩

/-- R181: Eos ends an action that waits, and writes `ctl` only. -/
theorem perform_awaiting_eos (ha : Awaits s a) (hp : p.symbol = .eos) :
    perform a (s.withInp (p :: x)) = .ended (s.withInp x).raiseEndOfStream := by
  cases a with
  | wait l => exact perform_wait_eos rfl hp
  | sample => exact perform_sample_eos rfl hp
  | skip n =>
    obtain ⟨hn, hcnt⟩ := ha
    obtain ⟨n, rfl⟩ := Nat.exists_eq_add_of_le' hn
    simp only [perform, State.withInp_inp, skipFrom, hp, ← hcnt]
    rfl
  | _ => cases ha

/-- R200, log 13: a reset abandons an action that waits. -/
theorem perform_awaiting_reset (ha : Awaits s a) (hp : p.symbol = .reset) :
    perform a (s.withInp (p :: x)) = .restarted (s.withInp x).resetBlock := by
  cases a with
  | wait l =>
    simp only [perform, State.withInp_inp, waitFrom, hp]
    rfl
  | sample =>
    simp only [perform, State.withInp_inp, sampleFrom, hp]
    rfl
  | skip n =>
    obtain ⟨n, rfl⟩ := Nat.exists_eq_add_of_le' ha.1
    simp only [perform, State.withInp_inp, skipFrom, hp]
    rfl
  | _ => cases ha

/-- R12, R181: an operation that a first part of the input suspends, and Eos behind it. -/
theorem runActions_eos (hs : s.inp = q ++ p :: x) (h : perform a (s.withInp q) = .suspended b t)
    (hp : p.symbol = .eos) :
    runActions r (a :: k) s = .next { t with ctl := .halt, inp := x, pending := none, result := .ended } :=
  runActions_cons_ended r k ((perform_resumed hs h).trans (perform_awaiting_eos (awaits_of_suspended h) hp))

/-- R200, log 13: an operation that a first part of the input suspends, and a reset behind it. -/
theorem runActions_reset (hs : s.inp = q ++ p :: x) (h : perform a (s.withInp q) = .suspended b t)
    (hp : p.symbol = .reset) :
    runActions r (a :: k) s = .next { (t.withInp x).resetBlock with result := .restarted } :=
  runActions_cons_restarted r k ((perform_resumed hs h).trans (perform_awaiting_reset (awaits_of_suspended h) hp))

/-- R104: an operation that the whole input suspends. -/
theorem runActions_inp_out (hs : s.inp = q) (h : perform a (s.withInp q) = .suspended b t) :
    runActions r (a :: k) s = .next { t with pending := some ⟨b :: k, r⟩, result := .suspended } :=
  runActions_cons_suspended r k (by rwa [withInp_of_inp_eq hs] at h)

/-- R12: an operation of one action that a first part of the input suspends, and that is done with what follows. -/
theorem runActions_done {u : State} (hs : s.inp = q ++ x) (h : perform a (s.withInp q) = .suspended b t)
    (hdone : perform b (t.withInp x) = .done u) :
    runActions r [a] s = .next { u with pending := none, result := .completed (returned r u) } := by
  rw [runActions_cons_done r [] ((perform_resumed hs h).trans hdone), runActions_nil]

/-- R101: what SAMPLE returns is the level of the current sample. -/
theorem returned_level {v : Level} (hs : s.inp = p :: x) (hp : p.symbol = .sample v) : returned .level s = .level v := by
  rw [returned, State.port, hs, List.headD_cons, symbol_sample_pin hp]

/-- R101: SAMPLE with a sample at the head of the input. -/
theorem exec_sample_hit {v : Level} (hrun : s.ctl ≠ .halt) (hs : s.inp = p :: x) (hp : p.symbol = .sample v) :
    exec .sample s = .next { s with pending := none, result := .completed (.level v) } := by
  rw [exec, execSample, operation_running hrun, runActions_cons_done _ _ (perform_sample_hit hs hp), runActions_nil,
    returned_level hs hp]

end

/-! ### A tick inside a skip (R83, R176) -/

/-- R176: the hardwired block is refused a step for which no transition is defined. -/
theorem step_not_selectable {s : State} (hw : Hardwired s) (hrst : s.port.rst = false) (h : s.selectable = false) :
    step s = .refused .undefinedSelector := by
  simp [step, resumption_none hw.2, undefinedSelector, hw.1, hrst, h]

/-- A Sample symbol asserts no reset. -/
theorem symbol_sample_rst {p : PortIn} {b : Level} (h : p.symbol = .sample b) : p.rst = false := by
  unfold PortIn.symbol at h
  split_ifs at h with hrst
  exact Bool.eq_false_iff.mpr hrst

/-- R83: inside a skip the selector does not examine the level of a sample. -/
theorem transitionOf_inside_skip {s : State} {p p' : PortIn} {b b' : Level} (hc : s.ctl = .skipLow ∨ s.ctl = .skipHigh)
    (hp : p.symbol = .sample b) (hp' : p'.symbol = .sample b') : transitionOf s p = transitionOf s p' := by
  rcases hc with hc | hc <;> simp only [transitionOf, hp, hp', hc]

end Sys2Proof.Machine

/-! SUPPORT. Proofs, twelfth part: the statements of `40_sample_cursor.md`. -/

namespace Sys2Proof.Proofs

open Sys2Proof Sys2Proof.Machine Sys2Proof.Safety

/-- Settles O14: both samples select one transition, which performs on the state without the sample; a state that R176
refuses is refused with either. -/
theorem skippedLevelsAreIgnored : Obligations.SkippedLevelsAreIgnored := by
  unfold Obligations.SkippedLevelsAreIgnored
  intro s p p' b b' rest hw hc hp hp'
  cases hsel : s.selectable with
  | false =>
    exact (step_not_selectable (s := s.withInp (p :: rest)) hw (symbol_sample_rst hp) hsel).trans
      (step_not_selectable (s := s.withInp (p' :: rest)) hw (symbol_sample_rst hp') hsel).symm
  | true =>
    calc
      step (s.withInp (p :: rest)) = exec (transitionOf s p) (s.withInp rest) := step_hardwired hw hsel
      _ = exec (transitionOf s p') (s.withInp rest) := by rw [transitionOf_inside_skip hc hp hp']
      _ = step (s.withInp (p' :: rest)) := (step_hardwired (s := s.withInp (p' :: rest)) hw hsel).symm

/-- Settles O30: the stretch leaves WAITLVL waiting, `k` samples on, for the symbol that follows. -/
theorem waitlvlOutcomes : Obligations.WaitlvlOutcomes := by
  unfold Obligations.WaitlvlOutcomes
  intro l s k q rest hrun hs hq
  have hwait := perform_wait_carries s hq
  have hexec : exec (.waitlvl l) s = runActions .position [.wait l] s := operation_running hrun
  rw [hexec]
  refine ⟨?_, ?_, ?_, ?_⟩
  · rintro p x rfl hp
    exact runActions_done hs hwait (perform_wait_hit rfl hp)
  · rintro p x rfl hp
    exact (runActions_eos hs hwait hp :)
  · rintro rfl
    exact runActions_inp_out (hs.trans q.append_nil) hwait
  · rintro p x rfl hp
    exact (runActions_reset hs hwait hp :)

/-- Settles O31: the stretch leaves SAMPLE waiting for the symbol that follows, and a sample that it finds is there for the
next one. -/
theorem sampleOutcomes : Obligations.SampleOutcomes := by
  unfold Obligations.SampleOutcomes
  intro s q rest hrun hs hq
  have hwait := perform_sample_carries s hq
  have hexec : exec .sample s = runActions .level [.sample] s := operation_running hrun
  rw [hexec]
  refine ⟨?_, ?_, ?_, ?_⟩
  · rintro p x b rfl hp
    refine ⟨_, rfl, ?_, exec_sample_hit hrun rfl hp⟩
    rw [runActions_done hs hwait (perform_sample_hit rfl hp), returned_level rfl hp]
    rfl
  · rintro p x rfl hp
    exact (runActions_eos hs hwait hp :)
  · rintro rfl
    exact runActions_inp_out (hs.trans q.append_nil) hwait
  · rintro p x rfl hp
    exact (runActions_reset hs hwait hp :)

/-- Settles O32: fewer samples than the skip has ticks leave it waiting for the remainder, and where one is owed the next
sample completes it. -/
theorem skipOutcomes : Obligations.SkipOutcomes := by
  unfold Obligations.SkipOutcomes
  intro len n s ls hlen hrun
  have hticks : skipTicks len = n := by rcases hlen with ⟨rfl, rfl⟩ | ⟨rfl, rfl⟩ <;> rfl
  have hexec : exec (.skip len) s = runActions .nothing [.skip n] s := hticks ▸ operation_running hrun
  rw [hexec]
  refine ⟨?_, ?_, ?_, ?_⟩
  · rintro rest hn hdel
    obtain ⟨q, p, b, ls', hs, hp, rfl, hq⟩ := delivers_concat hdel
    obtain rfl : ls'.length + 1 = n := by simpa using hn
    have hwait := perform_skip_carries s hq (Nat.lt_add_one ls'.length)
    rw [Nat.add_sub_cancel_left] at hwait
    exact runActions_done hs hwait (perform_skip_last rfl hp)
  · rintro q p x hn hs hq hp
    exact (runActions_eos hs (perform_skip_carries s hq hn) hp :)
  · rintro hn hq
    exact runActions_inp_out rfl (perform_skip_carries s hq hn)
  · rintro q p x hn hs hq hp
    exact (runActions_reset hs (perform_skip_carries s hq hn) hp :)

/-- Settles O34: POS is not guarded against HALT. -/
theorem posReturnsPosition : Obligations.PosReturnsPosition := by
  unfold Obligations.PosReturnsPosition
  exact fun _ => rfl

end Sys2Proof.Proofs

/-! SUPPORT. Proofs, thirteenth part: one cell over a stretch of samples and idle steps, completed by the sample that follows
the stretch or cut short by the end of the stream (R110 to R115). -/

namespace Sys2Proof.Machine

open Sys2Proof Sys2Proof.Safety

/-! ### A stretch in parts (R160) -/

theorem carries_cons_idle {p : PortIn} {q : List PortIn} {ls : List Level} (hp : p.symbol = .idle) (h : Carries q ls) :
    Carries (p :: q) ls := by
  unfold PortIn.symbol at hp
  split_ifs at hp with hrst heos hvalid
  obtain ⟨hall, rfl⟩ := h
  exact ⟨by simp [sampleOrIdle, hrst, heos, hall], by simp [levels, hvalid]⟩

theorem carries_cons_sample {p : PortIn} {q : List PortIn} {b : Level} {ls : List Level} (hp : p.symbol = .sample b)
    (h : Carries q ls) : Carries (p :: q) (b :: ls) := by
  unfold PortIn.symbol at hp
  split_ifs at hp with hrst heos hvalid
  obtain rfl := Symbol.sample.inj hp
  obtain ⟨hall, rfl⟩ := h
  exact ⟨by simp [sampleOrIdle, hrst, heos, hall], by simp [levels, hvalid]⟩

/-- The step that brings one of the levels divides a stretch: what stands before it carries the levels before, what stands
behind it the levels after. -/
theorem carries_split {q : List PortIn} {b : Level} {l₁ l₂ : List Level} (h : Carries q (l₁ ++ b :: l₂)) :
    ∃ q₁ y q₂, q = q₁ ++ y :: q₂ ∧ y.symbol = .sample b ∧ Carries q₁ l₁ ∧ Carries q₂ l₂ := by
  induction q generalizing l₁ with
  | nil => exact absurd h.2.symm (by simp [levels])
  | cons y q ih =>
    obtain ⟨hy, hq⟩ | ⟨c, ls, hy, hls, hq⟩ := carries_cons h
    · obtain ⟨q₁, z, q₂, rfl, hz, hq₁, hq₂⟩ := ih hq
      exact ⟨y :: q₁, z, q₂, rfl, hz, carries_cons_idle hy hq₁, hq₂⟩
    · cases l₁ with
      | nil =>
        obtain ⟨rfl, rfl⟩ := List.cons.inj hls
        exact ⟨[], y, q, rfl, hy, ⟨rfl, rfl⟩, hq⟩
      | cons d l₁ =>
        obtain ⟨rfl, rfl⟩ := List.cons.inj hls
        obtain ⟨q₁, z, q₂, rfl, hz, hq₁, hq₂⟩ := ih hq
        exact ⟨y :: q₁, z, q₂, rfl, hz, carries_cons_sample hy hq₁, hq₂⟩

/-- The same division at the level that `n` others precede. -/
theorem carries_split_at {q : List PortIn} {ls : List Level} {n : Nat} (h : Carries q ls) (hn : n < ls.length) :
    ∃ q₁ y q₂ b l₁ l₂, q = q₁ ++ y :: q₂ ∧ y.symbol = .sample b ∧ Carries q₁ l₁ ∧ Carries q₂ l₂ ∧ l₁.length = n ∧
      ls.length = n + 1 + l₂.length := by
  have hls : ls = ls.take n ++ ls[n] :: ls.drop (n + 1) := by simp
  rw [hls] at h
  obtain ⟨q₁, y, q₂, hq, hy, hq₁, hq₂⟩ := carries_split h
  exact ⟨q₁, y, q₂, ls[n], _, _, hq, hy, hq₁, hq₂, by simp; omega, by simp; omega⟩

/-- What is delivered is a stretch that carries all levels but the last, and the sample that brings that one. -/
theorem delivers_snoc {s : State} {ls : List Level} {b : Level} {rest : List PortIn} (h : Delivers s (ls ++ [b]) rest) :
    ∃ q p, s.inp = q ++ p :: rest ∧ p.symbol = .sample b ∧ Carries q ls := by
  obtain ⟨q, p, c, ls', hs, hp, hls, hq⟩ := delivers_concat h
  obtain ⟨rfl, hb⟩ := List.append_inj' hls rfl
  obtain rfl := List.singleton_inj.mp hb
  exact ⟨q, p, hs, hp, hq⟩

/-! ### The beginning of a cell -/

section

variable {s : State} {p : PortIn} {q x : List PortIn} {ls : List Level} {b : Level}

/-- R102: SKIP is done with the sample of its last tick. -/
theorem perform_skip_whole {n : Nat} (hs : s.inp = q ++ p :: x) (hq : Carries q ls) (hn : ls.length + 1 = n)
    (hp : p.symbol = .sample b) :
    perform (.skip n) s = .done { s with pos := s.pos + n, skipCnt := 0, inp := x } := by
  subst hn
  rw [perform_resumed hs (perform_skip_carries s hq (Nat.lt_add_one ls.length)), Nat.add_sub_cancel_left]
  exact perform_skip_last rfl hp

/-- R100, R110: the start cell opens at its first low sample, which is still the current one. -/
theorem performAll_openStart {k : Nat} (hs : s.inp = q ++ x) (hq : Carries q (List.replicate k true ++ false :: ls)) :
    ∃ q', Carries q' (false :: ls) ∧
      performAll [.role .start, .goto .hunt, .wait Config.startLevel, .openStart] s = some { s with
        pos := s.pos + k, ctl := .hunt, role := .start, cellStart := s.pos + k, cellVal := false, inp := q' ++ x } := by
  obtain ⟨q₁, y, q₂, rfl, hy, hq₁, hq₂⟩ := carries_split hq
  have hs' : s.inp = q₁ ++ y :: (q₂ ++ x) := by simpa using hs
  have hwait : perform (.wait Config.startLevel) ((s.withRole .start).goto .hunt) = .done { s with
      pos := s.pos + k, ctl := .hunt, role := .start, inp := y :: (q₂ ++ x) } :=
    (perform_resumed (s := (s.withRole .start).goto .hunt) hs' (perform_wait_carries _ hq₁)).trans
      (perform_wait_hit rfl hy)
  refine ⟨y :: q₂, carries_cons_sample hy hq₂, ?_⟩
  rw [performAll_cons_done _ rfl, performAll_cons_done _ rfl, performAll_cons_done _ hwait]
  rfl

/-- R101, R111, R112: a data or stop cell opens with the level of its first sample, which is still the current one. -/
theorem performAll_openLevel (ρ : Role) (hs : s.inp = q ++ x) (hq : Carries q (b :: ls)) :
    ∃ q', Carries q' (b :: ls) ∧ performAll [.role ρ, .goto .first, .sample, .openLevel] s = some { s with
      ctl := .first, role := ρ, cellStart := s.pos, cellVal := b, inp := q' ++ x } := by
  obtain ⟨q₁, y, q₂, rfl, hy, hq₁, hq₂⟩ := carries_split (l₁ := []) hq
  have hs' : s.inp = q₁ ++ y :: (q₂ ++ x) := by simpa using hs
  have hsample : perform .sample ((s.withRole ρ).goto .first) =
      .done (((s.withRole ρ).goto .first).withInp (y :: (q₂ ++ x))) :=
    (perform_resumed (s := (s.withRole ρ).goto .first) hs' (perform_sample_carries _ hq₁)).trans
      (perform_sample_hit rfl hy)
  refine ⟨y :: q₂, carries_cons_sample hy hq₂, ?_⟩
  rw [performAll_cons_done _ rfl, performAll_cons_done _ rfl, performAll_cons_done _ hsample,
    performAll_cons_done _ (perform_openLevel rfl hy)]
  rfl

/-- R113: the cell's first SKIP takes 16 of its ticks, and the second is entered. -/
theorem performAll_lowSkip (hs : s.inp = q ++ p :: x) (hq : Carries q ls) (hlen : ls.length = 15)
    (hp : p.symbol = .sample b) :
    performAll [.goto .skipLow, .skip Config.lowSkip, .goto .skipHigh] s = some { s with
      pos := s.pos + 16, ctl := .skipHigh, skipCnt := 0, inp := x } := by
  have hskip : perform (.skip Config.lowSkip) (s.goto .skipLow) = .done { s with
      pos := s.pos + 16, ctl := .skipLow, skipCnt := 0, inp := x } :=
    perform_skip_whole (s := s.goto .skipLow) hs hq (by rw [hlen]; rfl) hp
  rw [performAll_cons_done _ rfl, performAll_cons_done _ hskip]
  rfl

/-! ### A cell whose samples all arrive -/

/-- R113, R115: from its first tick a cell takes 52 samples, the last of which ends it with its one record. -/
theorem performAll_cellBody (ρ : Role) (hs : s.inp = q ++ p :: x) (hq : Carries q ls) (hlen : ls.length = 51)
    (hp : p.symbol = .sample b) :
    performAll (cellBody ρ) s = some { s with
      pos := s.pos + 52, skipCnt := 0, role := (cellSuccessor ρ).1, ctl := (cellSuccessor ρ).2, inp := x,
      sink := s.sink ++ [⟨s.cellStart, s.pos + 52, roleCategory ρ, .bitVal, bitByte s.cellVal⟩] } := by
  obtain ⟨q₁, y, q₂, c, l₁, l₂, rfl, hy, hq₁, hq₂, hl₁, hl₂⟩ := carries_split_at (n := 15) hq (by omega)
  have hlow := performAll_lowSkip (s := s) (x := q₂ ++ p :: x) (by simpa using hs) hq₁ hl₁ hy
  have hhigh : perform (.skip 36) { s with pos := s.pos + 16, ctl := .skipHigh, skipCnt := 0, inp := q₂ ++ p :: x } =
      .done { s with pos := s.pos + 52, ctl := .skipHigh, skipCnt := 0, inp := x } :=
    perform_skip_whole rfl hq₂ (by omega) hp
  calc
    performAll (cellBody ρ) s = performAll [.skip Config.highSkip, .endCell ρ] _ := performAll_append hlow
    _ = performAll [.endCell ρ] _ := performAll_cons_done _ hhigh
    _ = _ := rfl

/-- R110: the start cell, after `k` high samples. -/
theorem performAll_startCell {k : Nat} (h : Delivers s (List.replicate k true ++ false :: ls) x)
    (hlen : ls.length = 51) :
    performAll startCell s = some { s with
      pos := s.pos + k + 52, cellStart := s.pos + k, cellVal := false, skipCnt := 0, role := .data, ctl := .first,
      inp := x, sink := s.sink ++ [⟨s.pos + k, s.pos + k + 52, .startBit, .bitVal, 0⟩] } := by
  obtain ⟨ls, c, rfl⟩ := ls.eq_nil_or_concat'.resolve_left (by rintro rfl; cases hlen)
  obtain ⟨q, p, hs, hp, hq⟩ := delivers_snoc (ls := List.replicate k true ++ false :: ls) (by simpa using h)
  obtain ⟨q', hq', hopen⟩ := performAll_openStart hs hq
  exact (performAll_append hopen).trans (performAll_cellBody .start rfl hq' (by simpa using hlen) hp)

/-- R111, R112: a data or stop cell. -/
theorem performAll_levelCell (ρ : Role) (h : Delivers s (b :: ls) x) (hlen : ls.length = 51) :
    performAll (levelCell ρ) s = some { s with
      pos := s.pos + 52, cellStart := s.pos, cellVal := b, skipCnt := 0, role := (cellSuccessor ρ).1,
      ctl := (cellSuccessor ρ).2, inp := x,
      sink := s.sink ++ [⟨s.pos, s.pos + 52, roleCategory ρ, .bitVal, bitByte b⟩] } := by
  obtain ⟨ls, c, rfl⟩ := ls.eq_nil_or_concat'.resolve_left (by rintro rfl; cases hlen)
  obtain ⟨q, p, hs, hp, hq⟩ := delivers_snoc (ls := b :: ls) h
  obtain ⟨q', hq', hopen⟩ := performAll_openLevel ρ hs hq
  exact (performAll_append hopen).trans (performAll_cellBody ρ rfl hq' (by simpa using hlen) hp)

/-! ### A cell that the end of the stream cuts short -/

/-- R188, R189: EndOfStream inside a cell, at position `n` and with `x` left of the input. The cell's own registers apart,
`pos` and `ctl` are what was written; the sink, the buffers and the byte in progress are those of `s`. -/
def CutShort (s : State) (n : Nat) (x : List PortIn) (t : State) : Prop :=
  t = { s with
    pos := n, ctl := .halt, role := t.role, skipCnt := t.skipCnt, cellStart := t.cellStart, cellVal := t.cellVal,
    inp := x, pending := none, result := .ended }

variable {r : Returns} {k : List Action}

/-- R113, R188: Eos before the 52 ticks of a cell ends it in the SKIP it is inside. -/
theorem runActions_cellBody_eos (ρ : Role) (hs : s.inp = q ++ p :: x) (hq : Carries q ls) (hlen : ls.length < 52)
    (hp : p.symbol = .eos) :
    ∃ t, runActions r (cellBody ρ ++ k) s = .next t ∧ CutShort s (s.pos + ls.length) x t := by
  by_cases hlow : ls.length < 16
  · exact ⟨_, runActions_eos (s := s.goto .skipLow) hs (perform_skip_carries _ hq hlow) hp, rfl⟩
  · obtain ⟨q₁, y, q₂, c, l₁, l₂, rfl, hy, hq₁, hq₂, hl₁, hl₂⟩ := carries_split_at (n := 15) hq (by omega)
    have hdone := performAll_lowSkip (s := s) (x := q₂ ++ p :: x) (by simpa using hs) hq₁ hl₁ hy
    rw [hl₂, ← Nat.add_assoc]
    exact ⟨_, (runActions_append hdone).trans
      (runActions_eos rfl (perform_skip_carries _ hq₂ (n := 36) (by omega)) hp), rfl⟩

/-- R110, R188: Eos before the end of a start cell ends it in the hunt, or inside the cell. -/
theorem runActions_startCell_eos {j : Nat} (hs : s.inp = q ++ p :: x) (hq : Carries q (List.replicate j true ++ ls))
    (hhead : ls = [] ∨ ls.head? = some false) (hlen : ls.length < 52) (hp : p.symbol = .eos) :
    ∃ t, runActions r (startCell ++ k) s = .next t ∧ CutShort s (s.pos + j + ls.length) x t := by
  cases ls with
  | nil =>
    rw [List.append_nil] at hq
    exact ⟨_, runActions_eos (s := (s.withRole .start).goto .hunt) hs (perform_wait_carries _ hq) hp, rfl⟩
  | cons b ls =>
    obtain rfl : b = false := by simpa using hhead
    obtain ⟨q', hq', hopen⟩ := performAll_openStart hs hq
    rw [startCell, List.append_assoc, runActions_append hopen]
    exact runActions_cellBody_eos .start rfl hq' hlen hp

/-- R111, R112, R188: Eos before the end of a data or stop cell ends it at its SAMPLE, or inside the cell. -/
theorem runActions_levelCell_eos (ρ : Role) (hs : s.inp = q ++ p :: x) (hq : Carries q ls) (hlen : ls.length < 52)
    (hp : p.symbol = .eos) :
    ∃ t, runActions r (levelCell ρ ++ k) s = .next t ∧ CutShort s (s.pos + ls.length) x t := by
  cases ls with
  | nil => exact ⟨_, runActions_eos (s := (s.withRole ρ).goto .first) hs (perform_sample_carries _ hq) hp, rfl⟩
  | cons b ls =>
    obtain ⟨q', hq', hopen⟩ := performAll_openLevel ρ hs hq
    rw [levelCell, List.append_assoc, runActions_append hopen]
    exact runActions_cellBody_eos ρ rfl hq' hlen hp

end

end Sys2Proof.Machine

/-! SUPPORT. Proofs, fourteenth part: the statements of `41_bit_demodulator.md`. -/

namespace Sys2Proof.Proofs

open Sys2Proof Sys2Proof.Machine Sys2Proof.Safety

/-- Settles O35: all actions of the start cell are done, and what it returns stands in the cell's registers. -/
theorem demodStartReadsStartCell : Obligations.DemodStartReadsStartCell := by
  unfold Obligations.DemodStartReadsStartCell
  intro s k ls rest hrun hlen hdel
  exact (operation_running hrun).trans (runActions_of_performAll (performAll_startCell hdel hlen))

/-- Settles O36: a level cell of role DATA. -/
theorem demodDataReadsDataCell : Obligations.DemodDataReadsDataCell := by
  unfold Obligations.DemodDataReadsDataCell
  intro s b ls rest hrun hlen hdel
  exact (operation_running hrun).trans (runActions_of_performAll (performAll_levelCell .data hdel hlen))

/-- Settles O37: the two operations are one list of actions, a level cell of role STOP, and differ in what they return. -/
theorem stopCellIsReadNotChecked : Obligations.StopCellIsReadNotChecked := by
  unfold Obligations.StopCellIsReadNotChecked
  intro s b ls rest hrun hlen hdel
  have hcell := performAll_levelCell .stop hdel hlen
  exact ⟨(operation_running hrun).trans (runActions_of_performAll hcell),
    (operation_running hrun).trans (runActions_of_performAll hcell)⟩

/-- Settles O38: each of the four operations is one cell, and Eos ends it where it waits. -/
theorem unfinishedCellEmitsNothing : Obligations.UnfinishedCellEmitsNothing := by
  unfold Obligations.UnfinishedCellEmitsNothing
  intro i s k ls q x p hrun hs hp hq hlen hi
  have hcut : ∃ t, exec i s = .next t ∧ CutShort s (s.pos + k + ls.length) x t := by
    rcases hi with ⟨rfl, hhead⟩ | ⟨hi, rfl⟩
    · have hexec : exec .demodStart s = runActions .cell startCell s := operation_running hrun
      rw [hexec]
      exact runActions_startCell_eos (k := []) hs hq hhead hlen hp
    · obtain ⟨ret, ρ, hexec⟩ : ∃ ret ρ, exec i s = operation s (runActions ret (levelCell ρ)) := by
        rcases hi with rfl | rfl | rfl
        · exact ⟨.cell, .data, rfl⟩
        · exact ⟨.cell, .stop, rfl⟩
        · exact ⟨.nothing, .stop, rfl⟩
      rw [hexec, operation_running hrun]
      exact runActions_levelCell_eos (k := []) ρ hs (by simpa using hq) hlen hp
  obtain ⟨t, ht, hcut⟩ := hcut
  refine ⟨t, ht, ?_⟩
  rw [hcut]
  exact ⟨rfl, rfl, rfl, rfl, rfl, rfl, rfl, rfl, rfl, rfl, rfl⟩

end Sys2Proof.Proofs

/-! SUPPORT. Proofs, fifteenth part: a byte frame cell by cell (R120): what DECODE_BYTE has done after the start cell and some of
the data cells, and from there the whole frame, or its end where the stream ends. -/

namespace Sys2Proof.Machine

open Sys2Proof Sys2Proof.Safety

/-! ### A stretch that delivers its levels in two parts -/

theorem carries_append {q₁ q₂ : List PortIn} {l₁ l₂ : List Level} (h₁ : Carries q₁ l₁) (h₂ : Carries q₂ l₂) :
    Carries (q₁ ++ q₂) (l₁ ++ l₂) :=
  ⟨by rw [List.all_append, h₁.1, h₂.1]; rfl, by rw [levels_append, h₁.2, h₂.2]⟩

/-- A stretch divides behind the sample that brings the last of some first levels. -/
theorem carries_divide {q : List PortIn} {l₁ l₂ : List Level} (h : Carries q (l₁ ++ l₂)) (h₁ : l₁ ≠ []) :
    ∃ q₁ q₂, q = q₁ ++ q₂ ∧ Carries q₁ l₁ ∧ EndsInSample q₁ ∧ Carries q₂ l₂ := by
  obtain ⟨l, b, rfl⟩ := l₁.eq_nil_or_concat'.resolve_left h₁
  obtain ⟨q₁, y, q₂, rfl, hy, hq₁, hq₂⟩ := carries_split (l₁ := l) (by simpa using h)
  exact ⟨q₁ ++ [y], q₂, by simp, carries_append hq₁ (carries_cons_sample hy ⟨rfl, rfl⟩),
    ⟨y, by simp, by rw [hy, symbol_sample_pin hy]⟩, hq₂⟩

/-- What is delivered is delivered in two parts, the second to the state that has consumed the first. -/
theorem delivers_append {s : State} {l₁ l₂ : List Level} {x : List PortIn} (h : Delivers s (l₁ ++ l₂) x) (h₁ : l₁ ≠ [])
    (h₂ : l₂ ≠ []) : ∃ y, Delivers s l₁ y ∧ ∀ t : State, t.inp = y → Delivers t l₂ x := by
  obtain ⟨q, hs, hq, p, hlast, hp⟩ := h
  obtain ⟨q₁, q₂, rfl, hq₁, hend, hq₂⟩ := carries_divide hq h₁
  have hne : q₂ ≠ [] := by
    rintro rfl
    exact h₂ hq₂.2.symm
  rw [List.getLast?_append_of_ne_nil q₁ hne] at hlast
  exact ⟨q₂ ++ x, ⟨q₁, by simpa using hs, hq₁, hend⟩, fun t ht => ⟨q₂, ht, hq₂, p, hlast, hp⟩⟩

/-- The 52 levels of a cell that begins at tick `m`: that of its first tick, which is the cell's value (R73), and 51 more. -/
theorem cell_levels {f : List Level} {m : Nat} (h : m + 52 ≤ f.length) :
    ∃ ls, (f.drop m).take 52 = f.getD m false :: ls ∧ ls.length = 51 := by
  have hm : m < f.length := by omega
  refine ⟨(f.drop (m + 1)).take 51, ?_, by rw [List.length_take, List.length_drop]; omega⟩
  rw [List.drop_eq_getElem_cons hm, List.take_succ_cons, List.getD_eq_getElem f false hm]

/-! ### The first cells of a frame -/

/-- R120 step 3: the byte that the first `n` data bits of a frame make. -/
def bitsByte (f : List Level) (n : Nat) : Byte :=
  BitVec.ofNat 8 (((List.range n).map fun i => (frameBit f i).toNat * 2 ^ i).sum)

theorem frameByte_eq (f : List Level) : frameByte f = bitsByte f 8 := rfl

/-- `n` bits have a sum below `2 ^ n`. -/
theorem bits_sum_lt (f : List Level) (n : Nat) :
    ((List.range n).map fun i => (frameBit f i).toNat * 2 ^ i).sum < 2 ^ n := by
  induction n with
  | zero => exact Nat.one_pos
  | succ n ih =>
    have hbit : (frameBit f n).toNat * 2 ^ n ≤ 1 * 2 ^ n := Nat.mul_le_mul_right _ (Bool.toNat_le _)
    simp only [List.range_succ, List.map_append, List.map_cons, List.map_nil, List.sum_append, List.sum_singleton]
    omega

/-- R120, R123: merging bit `n` by OR adds `b_n * 2 ^ n`, since the bits merged before stand below it. -/
theorem bitsByte_succ (f : List Level) (n : Nat) :
    bitsByte f (n + 1) = bitsByte f n ||| (bitByte (frameBit f n) <<< n) := by
  have hshift : bitByte (frameBit f n) <<< n = BitVec.ofNat 8 (2 ^ n * (frameBit f n).toNat) := by
    apply BitVec.eq_of_toNat_eq
    cases frameBit f n <;> simp [bitByte, Nat.shiftLeft_eq]
  rw [hshift, bitsByte, bitsByte, ← BitVec.ofNat_or, Nat.or_comm, ← Nat.two_pow_add_eq_or_of_lt (bits_sum_lt f n)]
  simp [List.range_succ, Nat.add_comm, Nat.mul_comm]

/-- R159: the records of a frame found at `q`, as far as the cell of data bit `n - 1`. -/
def cellRecords (q : Nat) (f : List Level) (n : Nat) : List Record :=
  ⟨q, q + 52, .startBit, .bitVal, 0⟩ ::
    (List.range n).map fun i => ⟨q + 52 * (i + 1), q + 52 * (i + 2), .dataBit, .bitVal, bitByte (frameBit f i)⟩

theorem cellRecords_succ (q : Nat) (f : List Level) (n : Nat) :
    cellRecords q f (n + 1) = cellRecords q f n ++
      [⟨q + 52 * (n + 1), q + 52 * (n + 2), .dataBit, .bitVal, bitByte (frameBit f n)⟩] := by
  simp [cellRecords, List.range_succ]

theorem frameRecords_eq (q : Nat) (f : List Level) :
    frameRecords q f = cellRecords q f 8 ++ ([⟨q + 52, q + 468, .value, .byteHex, frameByte f⟩] ++
      [⟨q + 468, q + 520, .stopBit, .bitVal, bitByte (frameStop f)⟩]) := rfl

theorem take_frameRecords (q : Nat) (f : List Level) {n : Nat} (hn : n ≤ 8) :
    (frameRecords q f).take (n + 1) = cellRecords q f n := by
  have hlen : (cellRecords q f 8).length = 9 := rfl
  rw [frameRecords_eq, List.take_append_of_le_length (by omega), cellRecords, List.take_succ_cons, ← List.map_take,
    List.take_range, Nat.min_eq_left hn]
  rfl

/-- R120 steps 1 to 3: the start cell and `n` data cells, each merged into the accumulator. -/
def frameStart (n : Nat) : List Action := startCell ++ .beginByte :: dataCells n

/-- The state these actions leave, where a frame was found at `q`: the last cell done is the one that began at tick
`52 * n`, and the registers hold the byte as far as it is merged. -/
def frameSoFar (q : Nat) (f : List Level) (n : Nat) (s : State) : State :=
  { s with
    pos := q + 52 * (n + 1), ctl := .first, role := .data, skipCnt := 0, cellStart := q + 52 * n,
    cellVal := f.getD (52 * n) false, bitIdx := BitVec.ofNat 4 n, acc := bitsByte f n, startBitSample := q + 52,
    sink := s.sink ++ cellRecords q f n }

theorem dataCells_add (n m : Nat) : dataCells (n + m) = dataCells n ++ dataCells m := by
  induction n with
  | zero => rw [Nat.zero_add]; rfl
  | succ n ih => rw [Nat.add_right_comm, dataCells, dataCells, ih, List.append_assoc, List.cons_append]

theorem frameStart_add (n m : Nat) : frameStart (n + m) = frameStart n ++ dataCells m := by
  rw [frameStart, frameStart, dataCells_add, List.append_assoc, List.cons_append]

theorem frameStart_succ (n : Nat) : frameStart (n + 1) = frameStart n ++ (levelCell .data ++ [.mergeBit]) :=
  frameStart_add n 1

theorem byteFrame_eq : byteFrame = frameStart 8 ++ .endData :: levelCell .stop := by
  rw [frameStart, List.append_assoc]
  rfl

/-- Behind fewer than eight data cells DECODE_BYTE reads another. -/
theorem byteFrame_eq_of_lt {n : Nat} (hn : n < 8) : ∃ k, byteFrame = frameStart n ++ (levelCell .data ++ k) := by
  obtain ⟨m, hm⟩ := Nat.exists_eq_add_of_lt hn
  rw [byteFrame_eq, hm, Nat.add_assoc n m 1, frameStart_add, dataCells, List.append_assoc, List.append_assoc]
  exact ⟨_, rfl⟩

section

variable {s : State} {p : PortIn} {q x : List PortIn} {f : List Level} {j : Nat}

theorem highs_take_ne_nil {n : Nat} (hn : 0 < min n f.length) : List.replicate j true ++ f.take n ≠ [] :=
  List.append_ne_nil_of_right_ne_nil _ (List.ne_nil_of_length_pos (List.length_take ▸ hn))

/-- R120 steps 1 to 3, over the ticks of the start cell and of `n` data cells. -/
theorem performAll_frameStart (n : Nat) (hn : n ≤ 8) (hf : 52 * (n + 1) ≤ f.length) (hhead : f.head? = some false)
    (h : Delivers s (List.replicate j true ++ f.take (52 * (n + 1))) x) :
    performAll (frameStart n) s = some (frameSoFar (s.pos + j) f n (s.withInp x)) := by
  induction n generalizing x with
  | zero =>
    obtain ⟨ls, hcell, hls⟩ := cell_levels (f := f) (m := 0) (by omega)
    have hfirst : f.getD 0 false = false := by rw [List.getD_eq_getElem?_getD, ← List.head?_eq_getElem?, hhead]; rfl
    rw [List.drop_zero, hfirst] at hcell
    rw [Nat.zero_add, Nat.mul_one, hcell] at h
    rw [frameStart, performAll_append (performAll_startCell h hls), frameSoFar, Nat.mul_zero, hfirst]
    rfl
  | succ n ih =>
    obtain ⟨ls, hcell, hls⟩ := cell_levels (f := f) (m := 52 * (n + 1)) (by omega)
    rw [Nat.mul_add 52 (n + 1) 1, List.take_add, hcell, ← List.append_assoc] at h
    obtain ⟨y, hbefore, hcell⟩ := delivers_append h (highs_take_ne_nil (by omega)) (List.cons_ne_nil _ _)
    have hdone := ih (by omega) (by omega) hbefore
    have hidx : (BitVec.ofNat 4 n).toNat = n := Nat.mod_eq_of_lt (by omega)
    rw [frameStart_succ, performAll_append hdone, performAll_append (performAll_levelCell .data (hcell _ rfl) hls),
      performAll_cons_done _ rfl]
    simp only [performAll, State.mergeBit, frameSoFar, hidx, bitsByte_succ, cellRecords_succ, BitVec.ofNat_add,
      List.append_assoc]
    rfl

/-! ### A whole frame -/

/-- R120, R122, R123: DECODE_BYTE, after `j` high samples. -/
theorem performAll_byteFrame (h : Delivers s (List.replicate j true ++ f) x) (hlen : f.length = 520)
    (hhead : f.head? = some false) :
    performAll byteFrame s = some { afterFrame (s.pos + j) f s with inp := x } := by
  obtain ⟨ls, hstop, hls⟩ := cell_levels (f := f) (m := 468) (by omega)
  rw [List.take_of_length_le (by rw [List.length_drop]; omega)] at hstop
  rw [← List.take_append_drop 468 f, hstop, ← List.append_assoc] at h
  obtain ⟨y, hbefore, hcell⟩ := delivers_append h (highs_take_ne_nil (by omega)) (List.cons_ne_nil _ _)
  rw [byteFrame_eq, performAll_append (performAll_frameStart 8 le_rfl (by omega) hhead hbefore),
    performAll_cons_done _ rfl, performAll_levelCell .stop (hcell _ rfl) hls, afterFrame, frameRecords_eq,
    ← List.append_assoc, ← List.append_assoc]
  rfl

/-! ### A frame that the end of the stream cuts short -/

/-- R188, R198: a frame cut short by Eos, after `j` high samples and the levels `f`, and with `x` left of the input. -/
def FrameCut (s : State) (j : Nat) (f : List Level) (x : List PortIn) (t : State) : Prop :=
  t.ctl = .halt ∧ t.pos = s.pos + j + f.length ∧ t.tg = s.tg ∧ t.inp = x ∧
    t.sink = s.sink ++ (frameRecords (s.pos + j) f).take (recordsAfter f.length) ∧ t.pending = none ∧ t.result = .ended

theorem recordsAfter_of_lt {d : Nat} (h : d < 52) : recordsAfter d = 0 := if_pos (Nat.div_eq_of_lt h)

/-- R198: before the eighth data cell has ended, one record for each cell. -/
theorem recordsAfter_data {d n : Nat} (hn : n < 8) (h : d / 52 = n + 1) : recordsAfter d = n + 1 := by
  rw [recordsAfter, h, if_neg (Nat.succ_ne_zero n), if_neg (by omega), Nat.add_sub_cancel, Nat.min_eq_left hn.le]
  omega

/-- R198: in the stop cell the value record has been emitted too. -/
theorem recordsAfter_stop {d : Nat} (h : d / 52 = 9) : recordsAfter d = 10 := by
  rw [recordsAfter, h]
  rfl

/-- The cell that Eos cuts short lies behind completed cells, which took the position from `s.pos + j` to `u.pos` and emitted
the records of the frame as far as they go. -/
theorem CutShort.frameCut {u t : State} {m n : Nat} (h : CutShort u m x t) (hm : m = s.pos + j + f.length)
    (htg : u.tg = s.tg) (hn : recordsAfter f.length = n)
    (hsink : u.sink = s.sink ++ (frameRecords (s.pos + j) f).take n) : FrameCut s j f x t := by
  subst hn
  rw [h]
  exact ⟨rfl, hm, htg, rfl, hsink, rfl, rfl⟩

/-- The completed cells of a frame that Eos cuts short, and what is left of it. -/
theorem performAll_frameStart_cut {n : Nat} (hs : s.inp = q ++ p :: x) (hq : Carries q (List.replicate j true ++ f))
    (hn : n ≤ 8) (hf : 52 * (n + 1) ≤ f.length) (hhead : f.head? = some false) :
    ∃ q', Carries q' (f.drop (52 * (n + 1))) ∧
      performAll (frameStart n) s = some (frameSoFar (s.pos + j) f n (s.withInp (q' ++ p :: x))) := by
  rw [← List.take_append_drop (52 * (n + 1)) f, ← List.append_assoc] at hq
  obtain ⟨q₁, q₂, rfl, hq₁, hend, hq₂⟩ := carries_divide hq (highs_take_ne_nil (by omega))
  exact ⟨q₂, hq₂, performAll_frameStart n hn hf hhead ⟨q₁, by simpa using hs, hq₁, hend⟩⟩

variable {r : Returns} {k : List Action}

/-- R120, R181, R198: Eos before the 520 ticks of a frame ends it in the cell it is inside: the start cell, one of the data
cells, or the stop cell. -/
theorem runActions_byteFrame_eos (hs : s.inp = q ++ p :: x) (hq : Carries q (List.replicate j true ++ f))
    (hlen : f.length < 520) (hhead : f = [] ∨ f.head? = some false) (hp : p.symbol = .eos) :
    ∃ t, runActions r (byteFrame ++ k) s = .next t ∧ FrameCut s j f x t := by
  by_cases hstart : f.length < 52
  · rw [byteFrame, List.append_assoc]
    obtain ⟨t, ht, hcut⟩ := runActions_startCell_eos hs hq hhead hstart hp
    exact ⟨t, ht, hcut.frameCut rfl rfl (recordsAfter_of_lt hstart) (List.append_nil _).symm⟩
  have hhead : f.head? = some false := hhead.resolve_left (by rintro rfl; simp at hstart)
  obtain ⟨n, hcells⟩ := Nat.exists_eq_add_of_le' (show 1 ≤ f.length / 52 by omega)
  obtain ⟨q', hq', hdone⟩ := performAll_frameStart_cut (n := n) hs hq (by omega) (by omega) hhead
  have hrest : (f.drop (52 * (n + 1))).length = f.length - 52 * (n + 1) := List.length_drop
  have hpos : s.pos + j + 52 * (n + 1) + (f.drop (52 * (n + 1))).length = s.pos + j + f.length := by omega
  by_cases hdata : n < 8
  · obtain ⟨k', hframe⟩ := byteFrame_eq_of_lt hdata
    rw [hframe, List.append_assoc, runActions_append hdone, List.append_assoc]
    obtain ⟨t, ht, hcut⟩ := runActions_levelCell_eos (s := frameSoFar (s.pos + j) f n (s.withInp (q' ++ p :: x))) .data
      rfl hq' (by omega) hp
    exact ⟨t, ht, hcut.frameCut hpos rfl (recordsAfter_data hdata hcells)
      (by rw [take_frameRecords _ _ hdata.le]; rfl)⟩
  · obtain rfl : n = 8 := by omega
    rw [byteFrame_eq, List.append_assoc, runActions_append hdone, List.cons_append, runActions_cons_done _ _ rfl]
    obtain ⟨t, ht, hcut⟩ := runActions_levelCell_eos
      (s := endData (frameSoFar (s.pos + j) f 8 (s.withInp (q' ++ p :: x)))) .stop rfl hq' (by omega) hp
    exact ⟨t, ht, hcut.frameCut hpos rfl (recordsAfter_stop hcells) (List.append_assoc _ _ _)⟩

end

end Sys2Proof.Machine

/-! SUPPORT. Proofs, sixteenth part: the statements of `42_byte_assembler.md`. -/

namespace Sys2Proof.Proofs

open Sys2Proof Sys2Proof.Machine Sys2Proof.Safety

/-- Settles O39: all actions of the frame are done, and what it returns stands in the byte's registers. -/
theorem decodeByteReadsFrame : Obligations.DecodeByteReadsFrame := by
  unfold Obligations.DecodeByteReadsFrame
  intro s k f rest hrun hlen hhead hdel
  exact (operation_running hrun).trans (runActions_of_performAll (performAll_byteFrame hdel hlen hhead))

/-- Settles O40: both operations read a frame, LOOP after a flush that is not due with fewer than seven bytes held, and Eos
ends them inside it, before the APPEND. -/
theorem cutFrameIsNotAppended : Obligations.CutFrameIsNotAppended := by
  unfold Obligations.CutFrameIsNotAppended
  intro i s k f q x p hi hrun hheld hs hp hq hlen hhead
  obtain ⟨ret, tl, hexec⟩ : ∃ ret tl, exec i s = runActions ret (byteFrame ++ tl) s := by
    rcases hi with rfl | rfl
    · exact ⟨.frame, [], operation_running hrun⟩
    · have hflush : perform .flushIfPending s = .done s := congrArg Run.done (flushIfPending_of_ne hheld.ne)
      exact ⟨.nothing, [.append], (operation_running hrun).trans (runActions_cons_done _ _ hflush)⟩
  rw [hexec]
  exact runActions_byteFrame_eos hs hq hlen hhead hp

end Sys2Proof.Proofs

/-! SUPPORT. Proofs, seventeenth part: the framer (`43_telegram_framer.md`): the checksum over the buffer's entries, the flush of
seven entries, and one iteration of the loop. -/

namespace Sys2Proof.Machine

open Sys2Proof Sys2Proof.Safety

/-! ### Checksum and flush over the entries held -/

section

variable {s : State} {e0 e1 e2 e3 e4 e5 e6 : TgEntry} {rest : List TgEntry}

/-- R133: with five bytes held the sum is of the entries held; no free value enters. -/
theorem wantCrc_eq (h : s.tg = e0 :: e1 :: e2 :: e3 :: e4 :: rest) :
    s.wantCrc = e1.byte ^^^ e2.byte ^^^ e3.byte ^^^ e4.byte := by
  have h1 : s.entry 1 = e1 := entry_valid (by rw [h]; rfl)
  have h2 : s.entry 2 = e2 := entry_valid (by rw [h]; rfl)
  have h3 : s.entry 3 = e3 := entry_valid (by rw [h]; rfl)
  have h4 : s.entry 4 = e4 := entry_valid (by rw [h]; rfl)
  rw [State.wantCrc, State.tgByte, State.tgByte, State.tgByte, State.tgByte, h1, h2, h3, h4, xorSum]

/-- R133: with six bytes held the verdict is on the entries held. -/
theorem crcOk_eq_goodSum (h : s.tg = e0 :: e1 :: e2 :: e3 :: e4 :: e5 :: rest) :
    s.crcOk = goodSum e1 e2 e3 e4 e5 := by
  have h5 : s.entry 5 = e5 := entry_valid (by rw [h]; rfl)
  rw [State.crcOk, wantCrc_eq h, State.tgByte, h5, goodSum]

/-- R132: the records of the flush are read from the seven entries held. -/
theorem flushRecords_eq_telegramRecords (h : Holds7 s e0 e1 e2 e3 e4 e5 e6) :
    flushRecords s = telegramRecords e0 e1 e2 e3 e4 e5 e6 := by
  have hentry {k : Nat} {e : TgEntry} (hk : [e0, e1, e2, e3, e4, e5, e6][k]? = some e) : s.entry k = e :=
    entry_valid (by rw [h, hk])
  simp only [flushRecords, telegramRecord, fieldRecord, crcRecord, State.tgStart, State.tgEnd, crcOk_eq_goodSum h,
    hentry (k := 0) rfl, hentry (k := 1) rfl, hentry (k := 2) rfl, hentry (k := 3) rfl, hentry (k := 4) rfl,
    hentry (k := 5) rfl, hentry (k := 6) rfl, telegramRecords]

/-- R132: FLUSH of seven entries, written out. -/
theorem flushTelegram_of_holds7 (h : Holds7 s e0 e1 e2 e3 e4 e5 e6) :
    flushTelegram s = { s with sink := s.sink ++ telegramRecords e0 e1 e2 e3 e4 e5 e6, tg := [] } := by
  rw [flushTelegram_eq, flushRecords_eq_telegramRecords h]

end

/-! ### CHECKSUM, FLUSH and APPEND outside HALT -/

section

variable {s : State}

/-- R133: outside HALT CHECKSUM completes with the sum, and free values are read if entry 4 is not valid. -/
theorem execChecksum_running (hrun : s.ctl ≠ .halt) :
    execChecksum s = .next { s with
      staleReads := if 4 < s.tg.length then s.staleReads else s.staleReads + 1,
      result := .completed (.byte s.wantCrc) } := by
  rw [execChecksum, operation_running hrun]
  by_cases h : 4 < s.tg.length
  · rw [if_pos (entryValid_iff.mpr h), if_pos h]
    rfl
  · rw [if_neg (mt entryValid_iff.mp h), if_neg h]
    rfl

/-- R132: outside HALT FLUSH is performed exactly if seven bytes are held (log 12). -/
theorem execFlush_running (hrun : s.ctl ≠ .halt) :
    execFlush s =
      if s.tg.length = 7 then .next { flushTelegram s with result := .completed .nothing }
      else .next { s with result := .notPerformed } := by
  have hpending : s.flushPending = true ↔ s.tg.length = 7 := beq_iff_eq
  rw [execFlush, operation_running hrun]
  exact if_congr hpending rfl rfl

/-- R134: outside HALT APPEND stores its operands, unless there is no entry left (log 17). -/
theorem execAppend_running (b : Byte) (ss es : Nat) (hrun : s.ctl ≠ .halt) :
    execAppend b ss es s =
      if s.tg.length < 7 then .next { s with tg := s.tg ++ [⟨b, ss, es⟩], result := .completed .nothing }
      else .fault .bufferFull := by
  rw [execAppend, operation_running hrun]
  by_cases h : s.tg.length < 7
  · rw [appendEntry_eq_ok.mpr ⟨h, rfl⟩, if_pos h]
    rfl
  · rw [appendEntry_full (Nat.le_of_not_lt h), if_neg h]
    rfl

/-- R173: T.END.STOP stores the byte it completes and finds no entry left (log 17). -/
theorem execTEndStop_full (h : 7 ≤ s.tg.length) : execTEndStop s = .fault .bufferFull := by
  have hlast : 7 ≤ (lastTick .stop s.cellVal s).tg.length := h
  rw [execTEndStop, appendEntry_full hlast]
  rfl

end

/-! ### What the checksum detects -/

/-- The bytes that the verdict is about (R133): entries 1 to 4, which are summed, and entry 5, which is compared. -/
def crcEntries (tg : List TgEntry) : List TgEntry := (tg.drop 1).take 5

/-- The XOR of the bytes of some entries. -/
def byteXor : List TgEntry → Byte
  | [] => 0#8
  | e :: l => e.byte ^^^ byteXor l

/-- R133: four bytes have the fifth as their XOR exactly if the XOR of all five is 0. -/
theorem crcOk_iff_byteXor {s : State} (h : 6 ≤ s.tg.length) : s.crcOk = true ↔ byteXor (crcEntries s.tg) = 0#8 := by
  obtain ⟨e0, e1, e2, e3, e4, e5, rest, htg⟩ :
      ∃ e0 e1 e2 e3 e4 e5 rest, s.tg = e0 :: e1 :: e2 :: e3 :: e4 :: e5 :: rest :=
    match s.tg, h with
    | e0 :: e1 :: e2 :: e3 :: e4 :: e5 :: rest, _ => ⟨e0, e1, e2, e3, e4, e5, rest, rfl⟩
  have hxor : byteXor (crcEntries s.tg) = e1.byte ^^^ e2.byte ^^^ e3.byte ^^^ e4.byte ^^^ e5.byte := by
    simp [htg, crcEntries, byteXor, BitVec.xor_assoc]
  rw [crcOk_eq_goodSum htg, goodSum, beq_iff_eq, hxor, BitVec.xor_eq_zero_iff]

/-- Flipping bits of one byte flips the same bits of the XOR. -/
theorem byteXor_modify {l : List TgEntry} {k : Nat} (m : Byte) (hk : k < l.length) :
    byteXor (l.modify k fun e => { e with byte := e.byte ^^^ m }) = byteXor l ^^^ m := by
  induction l generalizing k with
  | nil => exact absurd hk (Nat.not_lt_zero k)
  | cons e l ih =>
    cases k with
    | zero => simp only [List.modify_zero_cons, byteXor]; ac_rfl
    | succ k => rw [List.modify_succ_cons, byteXor, byteXor, ih (Nat.lt_of_succ_lt_succ hk), BitVec.xor_assoc]

theorem crcEntries_modify_succ (tg : List TgEntry) (k : Nat) (f : TgEntry → TgEntry) :
    crcEntries (tg.modify (k + 1) f) = (crcEntries tg).modify k f := by
  cases tg with
  | nil => exact (congrArg crcEntries (List.modify_nil ..)).trans (List.modify_nil ..).symm
  | cons e l => exact List.take_modify ..

theorem crcEntries_length_le (tg : List TgEntry) : (crcEntries tg).length ≤ 5 := List.length_take_le ..

/-- R133: entries 0 and 6 do not count. -/
theorem crcEntries_modify_init_term {k : Nat} (hk : k = 0 ∨ k = 6) (tg : List TgEntry) (f : TgEntry → TgEntry) :
    crcEntries (tg.modify k f) = crcEntries tg := by
  rcases hk with rfl | rfl
  · cases tg <;> rfl
  · rw [crcEntries_modify_succ, List.modify_eq_self (crcEntries_length_le tg)]

/-- A single bit of a byte, as a mask, is not 0. -/
theorem one_shiftLeft_ne_zero {j : Nat} (hj : j < 8) : 1#8 <<< j ≠ 0#8 := by
  intro h
  have hbit := congrArg (BitVec.getLsbD · j) h
  simp [hj] at hbit

/-! ### One iteration of the loop -/

/-- R134: the APPEND at the end of LOOP stores the byte that stands in the registers. -/
theorem runActions_append_byte {s : State} (h : s.tg.length < 7) :
    runActions .nothing [.append] s = .next { s with
      tg := s.tg ++ [byteEntry s], pending := none, result := .completed .nothing } := by
  have happend : perform .append s = .done (s.store (byteEntry s)) := by rw [perform, appendEntry_eq_ok.mpr ⟨h, rfl⟩]
  exact (runActions_cons_done _ _ happend).trans (runActions_nil _ _)

/-- R131: one iteration, where `u` is the state behind the test at its head: the frame is read and its byte stored. -/
theorem exec_loop_eq {s u : State} {k : Nat} {f : List Level} {rest : List PortIn} (hrun : s.ctl ≠ .halt)
    (hflush : flushIfPending s = u) (hroom : u.tg.length < 7) (hlen : f.length = 520) (hhead : f.head? = some false)
    (hdel : Delivers u (List.replicate k true ++ f) rest) :
    exec .loop s = .next { afterFrame (u.pos + k) f u with
      tg := u.tg ++ [frameEntry (u.pos + k) f], inp := rest, pending := none, result := .completed .nothing } := by
  have hfirst : perform .flushIfPending s = .done u := congrArg Run.done hflush
  calc exec .loop s = runActions .nothing loopBody s := operation_running hrun
    _ = runActions .nothing (byteFrame ++ [.append]) u := runActions_cons_done _ _ hfirst
    _ = runActions .nothing [.append] { afterFrame (u.pos + k) f u with inp := rest } :=
      runActions_append (performAll_byteFrame hdel hlen hhead)
    _ = _ := runActions_append_byte (s := { afterFrame (u.pos + k) f u with inp := rest }) hroom

end Sys2Proof.Machine

/-! SUPPORT. Proofs, eighteenth part: the statements of `43_telegram_framer.md`. -/

namespace Sys2Proof.Proofs

open Sys2Proof Sys2Proof.Machine Sys2Proof.Safety

/-- Settles O41: with seven bytes held the frame is read by the flushed state, which holds none and has the same input to
come. -/
theorem loopFlushesThenDecodesThenAppends : Obligations.LoopFlushesThenDecodesThenAppends := by
  unfold Obligations.LoopFlushesThenDecodesThenAppends
  intro s k f rest hrun hlen hhead hdel
  refine ⟨fun hheld => exec_loop_eq hrun (flushIfPending_of_ne hheld.ne) hheld hlen hhead hdel, ?_⟩
  intro e0 e1 e2 e3 e4 e5 e6 h
  have hflush : flushIfPending s = { s with sink := s.sink ++ telegramRecords e0 e1 e2 e3 e4 e5 e6, tg := [] } :=
    (flushIfPending_of_eq (congrArg List.length h)).trans (flushTelegram_of_holds7 h)
  exact exec_loop_eq hrun hflush (by simp) hlen hhead hdel

/-- Settles O42: the eight records are read from the seven entries held. -/
theorem flushEmitsEightRecordsAndClears : Obligations.FlushEmitsEightRecordsAndClears := by
  unfold Obligations.FlushEmitsEightRecordsAndClears
  intro s hrun
  refine ⟨fun e0 e1 e2 e3 e4 e5 e6 h => ?_, fun hne => (execFlush_running hrun).trans (if_neg hne)⟩
  have hseven : s.tg.length = 7 := congrArg List.length h
  refine (execFlush_running hrun).trans ((if_pos hseven).trans ?_)
  rw [flushTelegram_of_holds7 h]

/-- Settles O43: the sum reads entries 1 to 4, and they are valid if entry 4 is. -/
theorem checksumIsXorOfFourBytes : Obligations.ChecksumIsXorOfFourBytes := by
  unfold Obligations.ChecksumIsXorOfFourBytes
  intro s hrun
  refine ⟨fun e0 e1 e2 e3 e4 rest h => ?_, fun hfew => ⟨s.wantCrc, ?_⟩⟩
  · have hvalid : 4 < s.tg.length := by rw [h]; simp
    rw [exec, execChecksum_running hrun, if_pos hvalid, wantCrc_eq h]
  · rw [exec, execChecksum_running hrun, if_neg (by omega)]

/-- Settles O44: a flipped bit of bytes 1 to 5 is a flipped bit of their XOR, which was 0; bytes 0 and 6 are not among
them. -/
theorem checksumDetectsSingleBitFlips : Obligations.ChecksumDetectsSingleBitFlips := by
  unfold Obligations.ChecksumDetectsSingleBitFlips
  intro s e0 e1 e2 e3 e4 e5 e6 h
  have hlen : s.tg.length = 7 := congrArg List.length h
  have hcrc (tg : List TgEntry) (htg : tg.length = 7) :
      ({ s with tg := tg } : State).crcOk = true ↔ byteXor (crcEntries tg) = 0#8 :=
    crcOk_iff_byteXor (s := { s with tg := tg }) (by simp [htg])
  refine ⟨fun hok k j hk hk5 hj => ?_, fun k b hk => ?_⟩
  · obtain ⟨n, rfl⟩ := Nat.exists_eq_add_of_le' hk
    have hn : n < (crcEntries s.tg).length := by
      rw [crcEntries, List.length_take, List.length_drop, hlen]
      omega
    rw [Bool.eq_false_iff, Ne, hcrc _ (by simp [hlen]), crcEntries_modify_succ, byteXor_modify _ hn,
      (crcOk_iff_byteXor (by omega)).mp hok, BitVec.zero_xor]
    exact one_shiftLeft_ne_zero hj
  · rw [Bool.eq_iff_iff, hcrc _ (by simp [hlen]), crcEntries_modify_init_term hk, crcOk_iff_byteXor (by omega)]

/-- Settles O45: an entry is free, and the byte stands behind the others. -/
theorem appendStoresEntry : Obligations.AppendStoresEntry := by
  unfold Obligations.AppendStoresEntry
  intro b ss es s hrun hroom
  exact ⟨(execAppend_running b ss es hrun).trans (if_pos hroom), List.getElem?_concat_length⟩

/-- Settles O46: both store a byte beside the seven. -/
theorem storingAnEighthByteFaults : Obligations.StoringAnEighthByteFaults := by
  unfold Obligations.StoringAnEighthByteFaults
  intro b ss es s hfull
  exact ⟨fun hrun => (execAppend_running b ss es hrun).trans (if_neg (Nat.not_lt.mpr hfull)), execTEndStop_full hfull⟩

end Sys2Proof.Proofs

/-! SUPPORT. Proofs, nineteenth part: the emitter (`44_annotation_emitter.md`): the records of the buffer kinds, and the records
that a transition appends, which lie behind the position it leads to. -/

namespace Sys2Proof.Machine

open Sys2Proof Sys2Proof.Safety

/-! ### The record kinds that read the buffers -/

section

variable {s : State} {e f : TgEntry} {k : Nat} {lbl : Label}

/-- R151 to R158: the record of a field spans the entry held. -/
theorem fieldRecord_eq (h : s.tg[k]? = some e) : fieldRecord k lbl s = ⟨e.ss, e.es, .scsField, lbl, 0⟩ := by
  rw [fieldRecord, State.tgStart, State.tgEnd, entry_valid h]

/-- R150: the record of the telegram spans the seven entries. -/
theorem telegramRecord_eq (h0 : s.tg[0]? = some e) (h6 : s.tg[6]? = some f) :
    telegramRecord s = ⟨e.ss, f.es, .telegram, .telegram, 0⟩ := by
  rw [telegramRecord, State.tgStart, State.tgEnd, entry_valid h0, entry_valid h6]

/-- R151 to R155, R158: outside HALT the field of an entry held is emitted. -/
theorem emitFromBuffers_fieldRecord (hrun : s.ctl ≠ .halt) (h : s.tg[k]? = some e) :
    emitFromBuffers k (fieldRecord k lbl) s = .next { s with
      sink := s.sink ++ [⟨e.ss, e.es, .scsField, lbl, 0⟩], result := .completed .nothing } := by
  obtain ⟨hk, -⟩ := List.getElem?_eq_some_iff.mp h
  rw [emitFromBuffers_eq hrun hk, fieldRecord_eq h]

end

/-! ### Records behind the position -/

/-- R145, R59, R80: the record spans at least one tick and ends at position `n` at the latest, and its codes and data are
those of a record of the block. -/
structure RecordBehind (n : Nat) (r : Record) : Prop where
  nonempty : r.ss < r.es
  ended : r.es ≤ n
  pair : recordPair r.cat r.lbl = true
  data : dataFits r.lbl r.data = true

/-- The records that `t` has more than `s` lie behind the position of `t`. -/
def AppendsBehind (s t : State) : Prop := ∃ rs, t.sink = s.sink ++ rs ∧ ∀ r ∈ rs, RecordBehind t.pos r

/-- R160: the records on the record port are those appended. -/
theorem newRecords_eq {s t : State} {rs : List Record} (h : t.sink = s.sink ++ rs) : newRecords s t = rs := by
  rw [newRecords, h, List.drop_left]

theorem appendsBehind_of_sink_eq {s t : State} (h : t.sink = s.sink) : AppendsBehind s t :=
  ⟨[], h.trans (List.append_nil _).symm, nofun⟩

/-- R79: a bit's data is 0 or 1. -/
theorem dataFits_bitByte (v : Level) : dataFits .bitVal (bitByte v) = true := by cases v <;> rfl

theorem recordPair_roleCategory (r : Role) : recordPair (roleCategory r) .bitVal = true := by cases r <;> rfl

/-- R132: the records of seven bytes that follow each other on the line, the last of them behind position `n`. -/
theorem telegramRecords_behind {n : Nat} {e0 e1 e2 e3 e4 e5 e6 : TgEntry}
    (hspans : ∀ e ∈ [e0, e1, e2, e3, e4, e5, e6], e.es = e.ss + 416)
    (hpairs : [e0, e1, e2, e3, e4, e5, e6].Pairwise (fun a b => a.es + 104 ≤ b.ss))
    (hended : ∀ e ∈ [e0, e1, e2, e3, e4, e5, e6], e.es ≤ n) :
    ∀ r ∈ telegramRecords e0 e1 e2 e3 e4 e5 e6, RecordBehind n r := by
  have hfield {e : TgEntry} {lbl : Label} (he : e ∈ [e0, e1, e2, e3, e4, e5, e6])
      (hpair : recordPair .scsField lbl = true) (hdata : dataFits lbl 0 = true) :
      RecordBehind n ⟨e.ss, e.es, .scsField, lbl, 0⟩ :=
    ⟨show e.ss < e.es by rw [hspans e he]; omega, hended e he, hpair, hdata⟩
  have hwhole : RecordBehind n ⟨e0.ss, e6.es, .telegram, .telegram, 0⟩ := by
    have h06 : e0.es + 104 ≤ e6.ss := List.rel_of_pairwise_cons hpairs (by simp)
    have h0 := hspans e0 (by simp)
    have h6 := hspans e6 (by simp)
    exact ⟨show e0.ss < e6.es by omega, hended e6 (by simp), rfl, rfl⟩
  simp only [telegramRecords, List.forall_mem_cons]
  refine ⟨hwhole, hfield (by simp) rfl rfl, hfield (by simp) rfl rfl, hfield (by simp) rfl rfl,
    hfield (by simp) rfl rfl, hfield (by simp) rfl rfl, ?_, hfield (by simp) rfl rfl, nofun⟩
  cases goodSum e1 e2 e3 e4 e5 <;> exact hfield (by simp) rfl rfl

/-- R132: what a flush appends, of bytes that follow each other on the line behind the position. -/
theorem appendsBehind_flushTelegram {s : State} (hlen : s.tg.length = 7) (hspans : ∀ e ∈ s.tg, e.es = e.ss + 416)
    (hpairs : s.tg.Pairwise (fun a b => a.es + 104 ≤ b.ss)) (hended : ∀ e ∈ s.tg, e.es ≤ s.pos) :
    AppendsBehind s (flushTelegram s) := by
  obtain ⟨e0, e1, e2, e3, e4, e5, e6, h⟩ : ∃ e0 e1 e2 e3 e4 e5 e6, Holds7 s e0 e1 e2 e3 e4 e5 e6 :=
    match htg : s.tg, hlen with
    | [e0, e1, e2, e3, e4, e5, e6], _ => ⟨e0, e1, e2, e3, e4, e5, e6, htg⟩
  rw [flushTelegram_of_holds7 h]
  rw [h] at hspans hpairs hended
  exact ⟨_, rfl, telegramRecords_behind hspans hpairs hended⟩

/-- Records appended at one position add up. -/
theorem AppendsBehind.trans {s t u : State} (hst : AppendsBehind s t) (htu : AppendsBehind t u) (hpos : u.pos = t.pos) :
    AppendsBehind s u := by
  obtain ⟨rs, hrs, hbehind⟩ := hst
  obtain ⟨rs', hrs', hbehind'⟩ := htu
  refine ⟨rs ++ rs', by rw [hrs', hrs, List.append_assoc], fun r hr => ?_⟩
  exact (List.mem_append.mp hr).elim (fun h => hpos ▸ hbehind r h) (hbehind' r)

/-! ### The transitions that end a cell -/

section

variable {s t : State} {p : PortIn}

/-- R113: the record of a cell spans its 52 ticks. -/
theorem appendsBehind_lastTick (ρ : Role) (v : Level) (h : BlockInv s) (hc : s.ctl = .skipHigh)
    (hn : s.skipCnt.toNat = 1) : AppendsBehind s (lastTick ρ v s) := by
  have hend := pos_cellEnd h hc hn
  refine ⟨_, rfl, List.forall_mem_singleton.mpr ⟨?_, le_rfl, recordPair_roleCategory ρ, dataFits_bitByte v⟩⟩
  change s.cellStart < s.pos + 1
  omega

/-- R172: the value record begins with the first data cell, so it spans at least the cell that ends. -/
theorem appendsBehind_endData (h : BlockInv s) (hc : s.ctl = .skipHigh) (hn : s.skipCnt.toNat = 1) (hr : s.role = .data) :
    AppendsBehind s (endDataIfEight (lastTick .data s.cellVal s).mergeBit) := by
  have hcell : AppendsBehind s (lastTick .data s.cellVal s).mergeBit := appendsBehind_lastTick .data s.cellVal h hc hn
  by_cases h8 : (lastTick .data s.cellVal s).mergeBit.bitIdx.toNat = 8
  · have hend := pos_cellEnd h hc hn
    obtain ⟨-, -, -, -, ⟨-, -, -, -, -, hdata, -⟩, -⟩ := h
    have hstart := hdata hr (.inr hc)
    rw [endDataIfEight_of_eq h8]
    refine hcell.trans ⟨_, rfl, List.forall_mem_singleton.mpr ⟨?_, le_rfl, rfl, rfl⟩⟩ rfl
    change s.startBitSample < s.pos + 1
    omega
  · rw [endDataIfEight_of_ne h8]
    exact hcell

/-- R173: with the byte stored the seven bytes of a flush lie behind the stop cell's end. -/
theorem appendsBehind_endStop (h : BlockInv s) (hc : s.ctl = .skipHigh) (hn : s.skipCnt.toNat = 1) (hr : s.role = .stop) :
    AppendsBehind s (flushIfPending ((lastTick .stop s.cellVal s).store (byteEntry s))) := by
  have hcell : AppendsBehind s ((lastTick .stop s.cellVal s).store (byteEntry s)) :=
    appendsBehind_lastTick .stop s.cellVal h hc hn
  by_cases h7 : ((lastTick .stop s.cellVal s).store (byteEntry s)).tg.length = 7
  · obtain ⟨hspans, hpairs, hheld⟩ := bufferOrder_store h (by simp [hc]) hr
    obtain ⟨-, -, -, -, ⟨hcellStart, -, -, -, -, -, -, -, hstop⟩, -⟩ := h
    have hbyteEnd : s.byteEnd ≤ s.pos + 1 := by
      have := hstop hr (.inr hc)
      omega
    rw [flushIfPending_of_eq h7]
    refine hcell.trans (appendsBehind_flushTelegram h7 hspans hpairs fun e he => (hheld e he).trans hbyteEnd) ?_
    rw [flushTelegram_eq]
  · rw [flushIfPending_of_ne h7]
    exact hcell

/-- R171 to R173: the transition that ends a cell of a role. -/
def cellEndInstr : Role → Instr
  | .start => .tEndStart
  | .data => .tEndData
  | .stop => .tEndStop

/-- R83: the end of a cell is selected with one tick of the high skip left, by the role. -/
theorem transitionOf_eq_cellEndInstr {ρ : Role} (h : transitionOf s p = cellEndInstr ρ) :
    s.ctl = .skipHigh ∧ s.skipCnt.toNat = 1 ∧ s.role = ρ := by
  unfold transitionOf at h
  split at h
  case h_8 _ hctl =>
    split at h
    case isTrue hlast =>
      refine ⟨hctl, last_iff.mp hlast, ?_⟩
      cases hr : s.role <;> cases ρ <;> simp [hr, cellEndInstr] at h ⊢
    case isFalse => cases ρ <;> cases h
  case h_5 | h_7 => split at h <;> cases ρ <;> cases h
  all_goals cases ρ <;> cases h

/-- R171 to R173: the three transitions that end a cell append their records behind the position, and the others append
none. -/
theorem exec_transitionOf_appendsBehind (h : BlockInv s) (hnext : exec (transitionOf s p) s = .next t) :
    AppendsBehind s t := by
  have hop := isTransition_transitionOf s p
  cases hi : transitionOf s p with
  | tEndStart =>
    obtain ⟨hc, hn, -⟩ := transitionOf_eq_cellEndInstr (ρ := .start) hi
    rw [hi] at hnext
    cases hnext
    exact (appendsBehind_lastTick .start false h hc hn :)
  | tEndData =>
    obtain ⟨hc, hn, hr⟩ := transitionOf_eq_cellEndInstr (ρ := .data) hi
    rw [hi] at hnext
    cases hnext
    exact appendsBehind_endData h hc hn hr
  | tEndStop =>
    obtain ⟨hc, hn, hr⟩ := transitionOf_eq_cellEndInstr (ρ := .stop) hi
    rw [hi] at hnext
    obtain ⟨u, hu, rfl⟩ := storedNext_eq_next (hnext : execTEndStop s = .next t)
    obtain ⟨-, rfl⟩ := appendEntry_eq_ok.mp hu
    exact appendsBehind_endStop h hc hn hr
  | tReset | tHalted | tEos | tIdle | tHuntMiss | tHuntHit | tFirst | tLowStep | tLowLast | tHighStep =>
    rw [hi] at hnext
    cases hnext
    exact appendsBehind_of_sink_eq rfl
  | _ => rw [hi] at hop; cases hop

end

end Sys2Proof.Machine

/-! SUPPORT. Proofs, twentieth part: the statements of `44_annotation_emitter.md`. -/

namespace Sys2Proof.Proofs

open Sys2Proof Sys2Proof.Machine Sys2Proof.Safety

/-- Settles O13: the step is the selected transition, and of the thirteen those that end a cell append records, which span the
cell, the byte or the bytes held. -/
theorem emittedRecordsLieBehindThePosition : Obligations.EmittedRecordsLieBehindThePosition := by
  unfold Obligations.EmittedRecordsLieBehindThePosition
  intro s t h hstep r hr
  obtain ⟨⟨hw, -⟩, -⟩ := id h
  rw [step_hardwired hw (selectable_of_blockInv h)] at hstep
  obtain ⟨rs, hsink, hbehind⟩ :=
    exec_transitionOf_appendsBehind (s := s.withInp s.inp.tail) (p := s.port) h hstep
  rw [newRecords_eq (s := s) hsink] at hr
  obtain ⟨hnonempty, hended, hpair, hdata⟩ := hbehind r hr
  exact ⟨hnonempty, hended, hpair, hdata⟩

/-- Settles O48: EMIT reads nothing of the state. -/
theorem emitAppendsRecord : Obligations.EmitAppendsRecord := by
  unfold Obligations.EmitAppendsRecord
  intro ss es c l d s hrun
  rw [exec, execEmit, emitOne_eq hrun]

/-- Settles O49: each kind is one record read from the registers; the text of a bit is the bit. -/
theorem bitAndValueRecordKinds : Obligations.BitAndValueRecordKinds := by
  unfold Obligations.BitAndValueRecordKinds
  intro s hrun
  have htext : labelText .bitVal (bitByte s.cellVal) = if s.cellVal then "1" else "0" := bitValText_bitByte s.cellVal
  exact ⟨⟨_, rfl, rfl, rfl, rfl, emitOne_eq hrun⟩, ⟨_, rfl, rfl, congrArg ([·]) htext, rfl, emitOne_eq hrun⟩,
    ⟨_, rfl, rfl, congrArg ([·]) htext, rfl, emitOne_eq hrun⟩, ⟨_, rfl, rfl, rfl, rfl, emitOne_eq hrun⟩⟩

/-- Settles O50: each kind reads entries that are among the seven held. -/
theorem telegramAndFieldRecordKinds : Obligations.TelegramAndFieldRecordKinds := by
  unfold Obligations.TelegramAndFieldRecordKinds
  intro s e0 e1 e2 e3 e4 e5 e6 hrun h
  have hentry (k : Nat) : s.tg[k]? = [e0, e1, e2, e3, e4, e5, e6][k]? := congrArg (·[k]?) h
  have hseven : 6 < s.tg.length := by rw [h]; exact Nat.lt_succ_self 6
  refine ⟨?_, emitFromBuffers_fieldRecord hrun (hentry 0), emitFromBuffers_fieldRecord hrun (hentry 1),
    emitFromBuffers_fieldRecord hrun (hentry 2), emitFromBuffers_fieldRecord hrun (hentry 3),
    emitFromBuffers_fieldRecord hrun (hentry 4), emitFromBuffers_fieldRecord hrun (hentry 6)⟩
  rw [exec, execEmitTelegram, emitFromBuffers_eq hrun hseven, telegramRecord_eq (hentry 0) (hentry 6)]

/-- Settles O51: both kinds compare the verdict on the seven bytes with their own. -/
theorem crcRecordKinds : Obligations.CrcRecordKinds := by
  unfold Obligations.CrcRecordKinds
  intro s e0 e1 e2 e3 e4 e5 e6 hrun h
  have hsix : 5 < s.tg.length := by rw [h]; exact Nat.lt_succ_of_lt (Nat.lt_succ_self 5)
  have hcrc (ok : Bool) (lbl : Label) : emitCrc ok lbl s =
      if goodSum e1 e2 e3 e4 e5 = ok then
        .next { s with sink := s.sink ++ [⟨e5.ss, e5.es, .scsField, lbl, 0⟩], result := .completed .nothing }
      else .next { s with result := .notPerformed } := by
    rw [emitCrc_eq hrun hsix, crcOk_eq_goodSum h, fieldRecord_eq (e := e5) (by rw [h]; rfl)]
  refine ⟨fun hgood => ?_, fun hbad => ?_⟩
  · exact ⟨(hcrc true .goodCrc).trans (if_pos hgood), (hcrc false .badCrc).trans (if_neg (by simp [hgood]))⟩
  · exact ⟨(hcrc false .badCrc).trans (if_pos hbad), (hcrc true .goodCrc).trans (if_neg (by simp [hbad]))⟩

end Sys2Proof.Proofs

/-! SUPPORT. Proofs, twenty-first part: a step of the hardwired block as the transition it selects, and what the transitions do
to the position and to the sink (R83, R160, R174 to R176). -/

namespace Sys2Proof.Machine

open Sys2Proof Sys2Proof.Safety

/-! ### A step of the hardwired block -/

section

variable {s t : State} {p : PortIn} {rest : List PortIn} {b : Level} {i : Instr}

/-- Where R176 does not hold the step up, the hardwired block performs the selected transition; `step_hardwired` for the states
that a reset alone leaves, too. -/
theorem step_hardwired_of_defined (hw : Hardwired s) (h : undefinedSelector s = false) :
    step s = exec (transitionOf s s.port) (s.withInp s.inp.tail) := by
  obtain ⟨hr, hp⟩ := hw
  simp [step, resumption_none hp, h, fetchWord_tick hr, passFetch_tick hr, decode_selectorWord, hr]

theorem decode_fetchWord_hardwired (hw : Hardwired s) : decode (fetchWord s) = .ok (transitionOf s s.port) := by
  rw [fetchWord_tick hw.1, decode_selectorWord]

/-- A step of the hardwired block that goes on is the selected transition. -/
theorem exec_of_step_hardwired (hw : Hardwired s) (h : step s = .next t) :
    exec (transitionOf s s.port) (s.withInp s.inp.tail) = .next t := by
  obtain ⟨p, hp, -⟩ | ⟨-, hdefined, -⟩ := step_eq_next h
  · rw [resumption_none hw.2] at hp
    cases hp
  · rw [← step_hardwired_of_defined hw hdefined, h]

/-- In a state that R176 allows, what is presented is taken away and the selected transition performed. -/
theorem step_presents (h : Presents s p rest) (ht : transitionOf s p = i) : step s = exec i { s with inp := rest } := by
  obtain ⟨hw, hsel, hs⟩ := h
  rw [step_hardwired hw hsel, State.port, hs, ← ht]
  rfl

/-! ### Which transition is selected (R83) -/

theorem symbol_eq_reset_iff : p.symbol = .reset ↔ p.rst = true := by
  unfold PortIn.symbol
  split_ifs with hrst <;> simp [hrst]

theorem symbol_of_eos (hrst : p.rst = false) (heos : p.eos = true) : p.symbol = .eos := by
  simp [PortIn.symbol, hrst, heos]

theorem transitionOf_reset (hp : p.symbol = .reset) : transitionOf s p = .tReset := by simp only [transitionOf, hp]

theorem transitionOf_halted (hc : s.ctl = .halt) (hp : p.symbol ≠ .reset) : transitionOf s p = .tHalted := by
  cases h : p.symbol with
  | reset => exact absurd h hp
  | _ => simp only [transitionOf, h, hc]

theorem transitionOf_eos (hrun : s.ctl ≠ .halt) (hp : p.symbol = .eos) : transitionOf s p = .tEos := by
  cases hc : s.ctl with
  | halt => exact absurd hc hrun
  | _ => simp only [transitionOf, hp, hc]

theorem transitionOf_idle (hrun : s.ctl ≠ .halt) (hp : p.symbol = .idle) : transitionOf s p = .tIdle := by
  cases hc : s.ctl with
  | halt => exact absurd hc hrun
  | _ => simp only [transitionOf, hp, hc]

theorem last_of_eq_one (h : s.skipCnt = 1) : s.last = true := beq_iff_eq.mpr h

theorem last_of_one_lt (h : 1 < s.skipCnt.toNat) : s.last = false := Bool.eq_false_iff.mpr fun hl => h.ne' (last_iff.mp hl)

/-- R171 to R173: the sample of the 52nd tick ends the cell, whatever its level. -/
theorem transitionOf_cellEnd (hc : s.ctl = .skipHigh) (hn : s.skipCnt = 1) (hp : p.symbol = .sample b) :
    transitionOf s p = cellEndInstr s.role := by
  simp only [transitionOf, hp, hc, last_of_eq_one hn, if_true]
  cases s.role <;> rfl

/-! ### The end of a stop cell (R173) -/

/-- R173: with an entry free the byte is stored, and flushed with six others. -/
theorem exec_tEndStop (h : s.tg.length < 7) :
    exec .tEndStop s = .next (flushIfPending ((lastTick .stop s.cellVal s).store (byteEntry s))) := by
  have hstored : appendEntry (byteEntry s) (lastTick .stop s.cellVal s) =
      .ok ((lastTick .stop s.cellVal s).store (byteEntry s)) := appendEntry_eq_ok.mpr ⟨h, rfl⟩
  exact congrArg (storedNext · flushIfPending) hstored

/-- T.END.STOP goes on only where the byte finds an entry. -/
theorem eq_of_exec_tEndStop (h : exec .tEndStop s = .next t) :
    t = flushIfPending ((lastTick .stop s.cellVal s).store (byteEntry s)) := by
  obtain ⟨u, hu, rfl⟩ := storedNext_eq_next (h : execTEndStop s = .next t)
  obtain ⟨-, rfl⟩ := appendEntry_eq_ok.mp hu
  rfl

/-! ### The position (R174) -/

/-- R165 to R173: the transitions that consume a sample. -/
def consumesSample : Instr → Bool
  | .tHuntMiss | .tHuntHit | .tFirst _ | .tLowStep | .tLowLast | .tHighStep | .tEndStart | .tEndData | .tEndStop => true
  | _ => false

theorem consumesSample_cellEndInstr (r : Role) : consumesSample (cellEndInstr r) = true := by cases r <;> rfl

/-- Outside HALT a sample that is presented is consumed. -/
theorem consumesSample_transitionOf (hrun : s.ctl ≠ .halt) (hp : p.symbol = .sample b) :
    consumesSample (transitionOf s p) = true := by
  cases hc : s.ctl with
  | hunt => cases b <;> simp only [transitionOf, hp, hc] <;> rfl
  | first => simp only [transitionOf, hp, hc]; rfl
  | skipLow => cases hl : s.last <;> simp only [transitionOf, hp, hc, hl] <;> rfl
  | skipHigh =>
    by_cases hn : s.skipCnt = 1
    · rw [transitionOf_cellEnd hc hn hp, consumesSample_cellEndInstr]
    · have hl : s.last = false := beq_eq_false_iff_ne.mpr hn
      simp only [transitionOf, hp, hc, hl]
      rfl
  | halt => exact absurd hc hrun

theorem endDataIfEight_pos (s : State) : (endDataIfEight s).pos = s.pos := by
  unfold endDataIfEight
  split_ifs <;> rfl

theorem flushIfPending_pos (s : State) : (flushIfPending s).pos = s.pos := by rw [flushIfPending_eq]

/-- R165 to R173: a sample that is consumed moves the position by one. -/
theorem exec_consumesSample_pos (hi : consumesSample i = true) (h : exec i s = .next t) : t.pos = s.pos + 1 := by
  cases i with
  | tHuntMiss | tHuntHit | tFirst | tLowStep | tLowLast | tHighStep | tEndStart =>
    cases h
    rfl
  | tEndData =>
    cases h
    exact endDataIfEight_pos _
  | tEndStop =>
    rw [eq_of_exec_tEndStop h]
    exact flushIfPending_pos _
  | _ => cases hi

/-! ### The sink (R175) -/

/-- R26, R172: the bit merged is the eighth exactly if seven were merged before. -/
theorem bitIdx_succ_eq_eight_iff {n : BitVec 4} : (n + 1).toNat = 8 ↔ n = 7 := by
  constructor
  · intro h
    bv_omega
  · rintro rfl
    rfl

/-- R175: one record ends a data cell, and the value record follows the eighth. -/
theorem endData_records (s : State) :
    ∃ rs, (endDataIfEight (lastTick .data s.cellVal s).mergeBit).sink = s.sink ++ rs ∧
      rs.length = if s.bitIdx = 7 then 2 else 1 := by
  by_cases h7 : s.bitIdx = 7
  · have h8 : (lastTick .data s.cellVal s).mergeBit.bitIdx.toNat = 8 := bitIdx_succ_eq_eight_iff.mpr h7
    rw [endDataIfEight_of_eq h8, if_pos h7]
    exact ⟨_, List.append_assoc .., rfl⟩
  · have h8 : (lastTick .data s.cellVal s).mergeBit.bitIdx.toNat ≠ 8 := mt bitIdx_succ_eq_eight_iff.mp h7
    rw [endDataIfEight_of_ne h8, if_neg h7]
    exact ⟨_, rfl, rfl⟩

/-- R175: one record ends a stop cell, and the eight of the flush follow where the byte is the seventh. -/
theorem endStop_records (s : State) :
    ∃ rs, (flushIfPending ((lastTick .stop s.cellVal s).store (byteEntry s))).sink = s.sink ++ rs ∧
      rs.length = if s.tg.length = 6 then 9 else 1 := by
  have hlen : ((lastTick .stop s.cellVal s).store (byteEntry s)).tg.length = s.tg.length + 1 := List.length_append
  by_cases h6 : s.tg.length = 6
  · rw [flushIfPending_of_eq (hlen.trans (congrArg (· + 1) h6)), flushTelegram_eq, if_pos h6]
    exact ⟨_, List.append_assoc .., rfl⟩
  · rw [flushIfPending_of_ne (by omega), if_neg h6]
    exact ⟨_, rfl, rfl⟩

end

end Sys2Proof.Machine

/-! SUPPORT. Proofs, twenty-second part: the tick machine over one byte frame that is presented a sample per step (R174, R178): the
ticks of a cell, the cells before the stop cell, the whole frame. -/

namespace Sys2Proof.Machine

open Sys2Proof Sys2Proof.Safety

/-! ### Runs inside LOOP -/

theorem run_add_of_next (M : Host.Core) {m : Nat} (n : Nat) {s t : M.State} (h : M.run m s = .next t) :
    M.run (m + n) s = M.run n t := by
  induction m generalizing s with
  | zero =>
    obtain rfl : s = t := Host.Outcome.next.inj h
    rw [Nat.zero_add]
  | succ m ih =>
    rw [Nat.add_right_comm]
    cases hs : M.step s with
    | next u =>
      rw [run_succ_of_next M _ hs] at h ⊢
      exact ih h
    | fault r => simp [Host.Core.run, hs] at h
    | refused r => simp [Host.Core.run, hs] at h

/-- R174: `n` steps take the tick machine from `s` to `t`, where it is inside LOOP. -/
structure TicksTo (n : Nat) (s t : State) : Prop where
  run_eq : core.run n s = .next t
  inside : InsideLoop t

theorem TicksTo.refl {s : State} (h : InsideLoop s) : TicksTo 0 s s := ⟨rfl, h⟩

theorem TicksTo.trans {m n : Nat} {s t u : State} (hst : TicksTo m s t) (htu : TicksTo n t u) : TicksTo (m + n) s u :=
  ⟨(run_add_of_next core n hst.run_eq).trans htu.run_eq, htu.inside⟩

theorem SampleTaken.ticksTo {s t : State} {q : List PortIn} (h : SampleTaken s q t) : TicksTo 1 s t :=
  ⟨run_succ 0 h.step_eq, h.inside⟩

theorem insideLoop_of_blockInv {s : State} (h : BlockInv s) (hrun : s.ctl ≠ .halt) : InsideLoop s := by
  obtain ⟨⟨hw, -⟩, -, ⟨-, hdata, -⟩, -, ⟨-, -, -, hval, -⟩, -⟩ := id h
  exact ⟨hw, Proofs.selectable_of_blockInv h, hrun, hval, hdata⟩

/-! ### The ticks of a cell -/

theorem onLine_append (l₁ l₂ : List Level) : onLine (l₁ ++ l₂) = onLine l₁ ++ onLine l₂ := List.map_append

section

variable {s : State} {x : List PortIn} {l : List Level} {b c : Level}

/-- R168, R170: the ticks of a skip before its last. -/
theorem ticksTo_lastOfSkip (h : InsideLoop s) (hs : s.inp = onLine l ++ x) (hc : s.ctl = .skipLow ∨ s.ctl = .skipHigh)
    (hn : s.skipCnt.toNat = l.length + 1) :
    TicksTo l.length s { s with pos := s.pos + l.length, skipCnt := 1, inp := x } := by
  induction l generalizing s with
  | nil =>
    have hone : s.skipCnt = 1 := BitVec.eq_of_toNat_eq hn
    obtain rfl : s.inp = x := hs
    rw [← hone]
    exact .refl h
  | cons b l ih =>
    rw [List.length_cons] at hn ⊢
    have hcount : (skipTick (s.withInp (onLine l ++ x))).skipCnt.toNat = l.length + 1 := by
      change (s.skipCnt - 1).toNat = _
      bv_omega
    have htick := (sampleTaken_skipTick h hs (symbol_ofLevel b) hc (by omega)).ticksTo
    have hrest := htick.trans (ih htick.inside rfl hc hcount)
    rw [Nat.add_comm 1] at hrest
    simpa only [skipTick, State.advance, State.withSkip, State.withInp, Nat.add_assoc, Nat.add_comm 1] using hrest

/-- R113: from the first tick of a cell to its last, 50 ticks later. -/
theorem ticksTo_lastOfCell (h : InsideLoop s) (hs : s.inp = onLine l ++ x) (hlen : l.length = 50) (hc : s.ctl = .skipLow)
    (hn : s.skipCnt = 15) :
    TicksTo 50 s { s with pos := s.pos + 50, ctl := .skipHigh, skipCnt := 1, inp := x } := by
  obtain ⟨b, l₂, hsplit⟩ : ∃ b l₂, l.drop 14 = b :: l₂ := List.exists_cons_of_length_pos (by simp [hlen])
  have hlow : (l.take 14).length = 14 := by simp [hlen]
  have hhigh : l₂.length = 35 := by simpa [hlen] using (congrArg List.length hsplit).symm
  have hl : onLine l = onLine (l.take 14) ++ PortIn.ofLevel b :: onLine l₂ :=
    calc
      onLine l = onLine (l.take 14 ++ b :: l₂) := by rw [← hsplit, List.take_append_drop]
      _ = _ := onLine_append _ _
  rw [hl, List.append_assoc] at hs
  have hskip := ticksTo_lastOfSkip h hs (.inl hc) (by rw [hn, hlow]; rfl)
  have hentered := hskip.trans (sampleTaken_lowLast hskip.inside rfl (symbol_ofLevel b) hc rfl).ticksTo
  have hcell := hentered.trans (ticksTo_lastOfSkip hentered.inside rfl (.inr rfl) (by rw [hhigh]; rfl))
  rwa [hlow, hhigh] at hcell

/-- R110, R166, R171: over a start cell. -/
theorem ticksTo_startCell (h : InsideLoop s) (hc : s.ctl = .hunt) (hs : s.inp = onLine (false :: (l ++ [c])) ++ x)
    (hlen : l.length = 50) :
    TicksTo 52 s { s with
      pos := s.pos + 52, ctl := .first, role := .data, skipCnt := 0, cellStart := s.pos, cellVal := false, bitIdx := 0,
      acc := 0, startBitSample := s.pos + 52, inp := x,
      sink := s.sink ++ [⟨s.pos, s.pos + 52, .startBit, .bitVal, 0⟩] } := by
  have hr : s.role = .start := (selectable_iff.mp h.selectable).2.1 hc
  have hs' : s.inp = PortIn.ofLevel false :: (onLine l ++ PortIn.ofLevel c :: x) := by simpa [onLine] using hs
  have hfirst := (sampleTaken_huntHit h hs' (symbol_ofLevel false) hc).ticksTo
  have hcell := hfirst.trans (ticksTo_lastOfCell hfirst.inside rfl hlen rfl rfl)
  exact hcell.trans (sampleTaken_endStart hcell.inside rfl (symbol_ofLevel c) rfl rfl hr).ticksTo

/-- R111, R112, R167: over a data or stop cell, as far as its last tick. -/
theorem ticksTo_lastOfLevelCell (h : InsideLoop s) (hc : s.ctl = .first) (hs : s.inp = onLine (b :: (l ++ [c])) ++ x)
    (hlen : l.length = 50) :
    TicksTo 51 s { s with
      pos := s.pos + 51, ctl := .skipHigh, cellStart := s.pos, cellVal := b, skipCnt := 1,
      inp := PortIn.ofLevel c :: x } := by
  have hs' : s.inp = PortIn.ofLevel b :: (onLine l ++ PortIn.ofLevel c :: x) := by simpa [onLine] using hs
  have hfirst := (sampleTaken_first h hs' (symbol_ofLevel b) hc).ticksTo
  exact hfirst.trans (ticksTo_lastOfCell hfirst.inside rfl hlen rfl rfl)

/-- R111, R172: over a data cell. -/
theorem ticksTo_dataCell (h : InsideLoop s) (hc : s.ctl = .first) (hr : s.role = .data)
    (hs : s.inp = onLine (b :: (l ++ [c])) ++ x) (hlen : l.length = 50) :
    TicksTo 52 s (endDataIfEight (State.mergeBit { s with
      pos := s.pos + 52, ctl := .first, role := .data, skipCnt := 0, cellStart := s.pos, cellVal := b, inp := x,
      sink := s.sink ++ [⟨s.pos, s.pos + 52, .dataBit, .bitVal, bitByte b⟩] })) := by
  have hcell := ticksTo_lastOfLevelCell h hc hs hlen
  exact hcell.trans (sampleTaken_endData hcell.inside rfl (symbol_ofLevel c) rfl rfl hr).ticksTo

/-- R112, R173: over a stop cell. -/
theorem ticksTo_stopCell (h : InsideLoop s) (hc : s.ctl = .first) (hr : s.role = .stop)
    (hs : s.inp = onLine (b :: (l ++ [c])) ++ x) (hlen : l.length = 50) :
    TicksTo 52 s (flushIfPending { s with
      pos := s.pos + 52, ctl := .hunt, role := .start, skipCnt := 0, cellStart := s.pos, cellVal := b, inp := x,
      sink := s.sink ++ [⟨s.pos, s.pos + 52, .stopBit, .bitVal, bitByte b⟩], tg := s.tg ++ [byteEntry s] }) := by
  have hcell := ticksTo_lastOfLevelCell h hc hs hlen
  exact hcell.trans (sampleTaken_endStop hcell.inside rfl (symbol_ofLevel c) rfl rfl hr).ticksTo

end

/-! ### The cells of a frame -/

section

variable {s : State} {f : List Level} {x : List PortIn}

/-- The cell of a frame that begins at tick `m`: its first level, which is the cell's value (R73), and 51 more, the last of which
ends it. -/
theorem cell_levels_concat {m : Nat} (h : m + 52 ≤ f.length) :
    ∃ l c, (f.drop m).take 52 = f.getD m false :: (l ++ [c]) ∧ l.length = 50 := by
  obtain ⟨ls, hcell, hls⟩ := cell_levels h
  obtain ⟨l, c, rfl⟩ := ls.eq_nil_or_concat'.resolve_left (by rintro rfl; cases hls)
  exact ⟨l, c, hcell, by simpa using hls⟩

/-- R120 step 3: one data cell more. -/
theorem mergeBit_frameSoFar (q : Nat) (f : List Level) (s : State) {n : Nat} (hn : n < 8) :
    State.mergeBit { frameSoFar q f n s with
      pos := q + 52 * (n + 1) + 52, ctl := .first, role := .data, skipCnt := 0, cellStart := q + 52 * (n + 1),
      cellVal := f.getD (52 * (n + 1)) false, inp := x,
      sink := s.sink ++ cellRecords q f n ++
        [⟨q + 52 * (n + 1), q + 52 * (n + 1) + 52, .dataBit, .bitVal, bitByte (f.getD (52 * (n + 1)) false)⟩] } =
      frameSoFar q f (n + 1) (s.withInp x) := by
  have hidx : (BitVec.ofNat 4 n).toNat = n := Nat.mod_eq_of_lt (by omega)
  simp only [State.mergeBit, frameSoFar, hidx, bitsByte_succ, cellRecords_succ, BitVec.ofNat_add, List.append_assoc]
  rfl

/-- R120 steps 1 to 4: over the start cell and `n` data cells; after the eighth the stop cell is next. -/
theorem ticksTo_frameSoFar (n : Nat) (hn : n ≤ 8) (hf : 52 * (n + 1) ≤ f.length) (hhead : f.head? = some false)
    (h : InsideLoop s) (hc : s.ctl = .hunt) (hs : s.inp = onLine (f.take (52 * (n + 1))) ++ x) :
    TicksTo (52 * (n + 1)) s (endDataIfEight (frameSoFar s.pos f n (s.withInp x))) := by
  induction n generalizing x with
  | zero =>
    obtain ⟨l, c, hcell, hl⟩ := cell_levels_concat (f := f) (m := 0) (by omega)
    have hfirst : f.getD 0 false = false := by rw [List.getD_eq_getElem?_getD, ← List.head?_eq_getElem?, hhead]; rfl
    rw [List.drop_zero, hfirst] at hcell
    rw [Nat.zero_add, Nat.mul_one, hcell] at hs
    rw [frameSoFar, Nat.mul_zero, hfirst]
    exact ticksTo_startCell h hc hs hl
  | succ n ih =>
    obtain ⟨l, c, hcell, hl⟩ := cell_levels_concat (f := f) (m := 52 * (n + 1)) (by omega)
    rw [Nat.mul_add 52 (n + 1) 1, List.take_add, hcell, onLine_append, List.append_assoc] at hs
    have hbefore := ih (by omega) (by omega) hs
    have hidx : (BitVec.ofNat 4 n).toNat ≠ 8 := by rw [BitVec.toNat_ofNat]; omega
    rw [endDataIfEight_of_ne hidx] at hbefore
    have hlast := ticksTo_dataCell hbefore.inside rfl rfl rfl hl
    rw [← mergeBit_frameSoFar s.pos f s (by omega)]
    exact hbefore.trans hlast

/-- R178: over a whole frame; its byte is stored, and flushed with six others. -/
theorem ticksTo_frame (h : InsideLoop s) (hc : s.ctl = .hunt) (hlen : f.length = 520) (hhead : f.head? = some false)
    (hs : s.inp = onLine f ++ x) :
    TicksTo 520 s (flushIfPending
      { afterFrame s.pos f s with tg := s.tg ++ [frameEntry s.pos f], inp := x }) := by
  obtain ⟨l, c, hstop, hl⟩ := cell_levels_concat (f := f) (m := 468) (by omega)
  rw [List.take_of_length_le (by rw [List.length_drop]; omega)] at hstop
  rw [← List.take_append_drop 468 f, hstop, onLine_append, List.append_assoc] at hs
  have hbefore := ticksTo_frameSoFar 8 le_rfl (by omega) hhead h hc hs
  have hlast := ticksTo_stopCell hbefore.inside rfl rfl rfl hl
  rw [afterFrame, frameRecords_eq, ← List.append_assoc, ← List.append_assoc]
  exact hbefore.trans hlast

end

end Sys2Proof.Machine

/-! SUPPORT. Proofs, twenty-third part: the statements of `45_tick_machine.md`. -/

namespace Sys2Proof.Proofs

open Sys2Proof Sys2Proof.Machine Sys2Proof.Safety

/-- Settles O10: each of the states lies outside `selectable`. -/
theorem undefinedStatesAreRefused : Obligations.UndefinedStatesAreRefused := by
  unfold Obligations.UndefinedStatesAreRefused
  intro s hw hrst hstate
  refine step_not_selectable hw hrst (Bool.eq_false_iff.mpr fun hsel => ?_)
  obtain ⟨hheld, hhunt, hfirst, hlow, hhigh⟩ := selectable_iff.mp hsel
  have hpos (hz : s.skipCnt = 0) : ¬ 1 ≤ s.skipCnt.toNat := by simp [hz]
  rcases hstate with ⟨hc, hr⟩ | ⟨hc, hr⟩ | ⟨hc, hz | hbig⟩ | ⟨hc, hz | hbig⟩ | hseven
  · exact hfirst hc hr
  · exact hr (hhunt hc)
  · exact hpos hz (hlow hc).1
  · exact Nat.not_lt.mpr hbig (hlow hc).2
  · exact hpos hz (hhigh hc).1
  · exact Nat.not_lt.mpr (hhigh hc).2 hbig
  · exact hheld.ne hseven

/-- Settles O11: the step is the selected transition, which consumes a sample exactly if one is presented outside HALT. -/
theorem posCountsConsumedSamples : Obligations.PosCountsConsumedSamples := by
  unfold Obligations.PosCountsConsumedSamples
  intro s t hw hstep
  have hexec := exec_of_step_hardwired hw hstep
  by_cases hrst : s.port.symbol = .reset
  · rw [transitionOf_reset hrst] at hexec
    cases hexec
    rw [hrst]
    rfl
  by_cases hc : s.ctl = .halt
  · rw [transitionOf_halted hc hrst] at hexec
    cases hexec
    cases hp : s.port.symbol with
    | reset => exact absurd hp hrst
    | sample b => exact (if_pos hc).symm
    | eos | idle => rfl
  cases hp : s.port.symbol with
  | reset => exact absurd hp hrst
  | eos =>
    rw [transitionOf_eos hc hp] at hexec
    cases hexec
    rfl
  | idle =>
    rw [transitionOf_idle hc hp] at hexec
    cases hexec
    rfl
  | sample b => exact (exec_consumesSample_pos (consumesSample_transitionOf hc hp) hexec).trans (if_neg hc).symm

/-- Settles O12: only the three transitions that end a cell emit. -/
theorem stepAppendsRecordsByTransition : Obligations.StepAppendsRecordsByTransition := by
  unfold Obligations.StepAppendsRecordsByTransition
  intro s t i hw hi hstep
  obtain rfl : transitionOf s s.port = i := Except.ok.inj ((decode_fetchWord_hardwired hw).symm.trans hi)
  have hexec := exec_of_step_hardwired hw hstep
  have hop := isTransition_transitionOf s s.port
  generalize transitionOf s s.port = i at hexec hop
  cases i with
  | tEndStart =>
    cases hexec
    exact ⟨_, rfl, rfl⟩
  | tEndData =>
    cases hexec
    exact endData_records (s.withInp s.inp.tail)
  | tEndStop =>
    rw [eq_of_exec_tEndStop hexec]
    exact endStop_records (s.withInp s.inp.tail)
  | tReset | tHalted | tEos | tIdle | tHuntMiss | tHuntHit | tFirst | tLowStep | tLowLast | tHighStep =>
    cases hexec
    exact ⟨[], (List.append_nil _).symm, rfl⟩
  | _ => cases hop

/-- Settles O5: none of the three tests before the instruction is performed holds the step up. -/
theorem stepRunsDecodedInstruction : Obligations.StepRunsDecodedInstruction := by
  unfold Obligations.StepRunsDecodedInstruction
  refine ⟨fun s i hnone hdefined hi hreq _ => ⟨?_, ?_, ?_⟩, fun s p hp => step_of_resumption hp⟩
  · have hperformed : (s.request.isSome && isTransition i) = false := by
      rcases hreq with hreq | hop
      · rw [hreq]; rfl
      · rw [hop, Bool.and_false]
    simp [step, hnone, hdefined, hi, hperformed]
  · exact fun hr => ⟨fetchWord_tick hr, passFetch_tick hr⟩
  · exact fun w hr => ⟨fetchWord_request hr, passFetch_request hr⟩

/-- Settles O17: `rst` is looked at before R176 and selects T.RESET whatever the registers hold. -/
theorem resetTransitionClearsRegisters : Obligations.ResetTransitionClearsRegisters := by
  unfold Obligations.ResetTransitionClearsRegisters
  refine fun s => ⟨rfl, fun p rest hw hs hrst => ?_⟩
  have hport : s.port = p := by rw [State.port, hs]; rfl
  have hdefined : undefinedSelector s = false := by simp [undefinedSelector, hport, hrst]
  rw [step_hardwired_of_defined hw hdefined, hport, transitionOf_reset (symbol_eq_reset_iff.mpr hrst), hs]
  rfl

/-- Settles O18: HALT comes before every symbol but Reset. -/
theorem haltedTransitionChangesNothing : Obligations.HaltedTransitionChangesNothing := by
  unfold Obligations.HaltedTransitionChangesNothing
  refine fun s => ⟨rfl, fun p rest h hc hrst => step_presents h (transitionOf_halted hc ?_)⟩
  rw [Ne, symbol_eq_reset_iff, hrst]
  exact Bool.false_ne_true

/-- Settles O19: Eos comes before a sample presented with it. -/
theorem eosTransitionHalts : Obligations.EosTransitionHalts := by
  unfold Obligations.EosTransitionHalts
  exact fun s => ⟨rfl, fun p rest h hrun hrst heos => step_presents h (transitionOf_eos hrun (symbol_of_eos hrst heos))⟩

/-- Settles O20: with no symbol the selector examines `ctl` only. -/
theorem idleTransitionChangesNothing : Obligations.IdleTransitionChangesNothing := by
  unfold Obligations.IdleTransitionChangesNothing
  exact fun s => ⟨rfl, fun p rest h hrun hp => step_presents h (transitionOf_idle hrun hp)⟩

/-- Settles O21: in HUNT the level selects. -/
theorem huntMissConsumesHighSample : Obligations.HuntMissConsumesHighSample := by
  unfold Obligations.HuntMissConsumesHighSample
  exact fun s => ⟨rfl, fun p rest h hc hp => step_presents h (by simp [transitionOf, hp, hc])⟩

/-- Settles O22: in HUNT the level selects; the cell opens at the position before the sample is consumed. -/
theorem huntHitOpensStartCell : Obligations.HuntHitOpensStartCell := by
  unfold Obligations.HuntHitOpensStartCell
  exact fun s => ⟨rfl, fun p rest h hc hp => step_presents h (by simp [transitionOf, hp, hc])⟩

/-- Settles O23: in FIRST the transition carries the level presented. -/
theorem firstTickSamplesCellValue : Obligations.FirstTickSamplesCellValue := by
  unfold Obligations.FirstTickSamplesCellValue
  exact fun s b => ⟨rfl, fun p rest h hc hp => step_presents h (by simp [transitionOf, hp, hc])⟩

/-- Settles O24: with a count above 1 the tick is not the skip's last. -/
theorem lowStepCountsDown : Obligations.LowStepCountsDown := by
  unfold Obligations.LowStepCountsDown
  exact fun s => ⟨rfl, fun p b rest h hc hn hp =>
    step_presents h (by simp [transitionOf, hp, hc, last_of_one_lt hn])⟩

/-- Settles O25: with a count of 1 the tick is the skip's last. -/
theorem lowLastBeginsHighSkip : Obligations.LowLastBeginsHighSkip := by
  unfold Obligations.LowLastBeginsHighSkip
  exact fun s => ⟨rfl, fun p b rest h hc hn hp =>
    step_presents h (by simp [transitionOf, hp, hc, last_of_eq_one hn])⟩

/-- Settles O26: with a count above 1 the tick is not the skip's last. -/
theorem highStepCountsDown : Obligations.HighStepCountsDown := by
  unfold Obligations.HighStepCountsDown
  exact fun s => ⟨rfl, fun p b rest h hc hn hp =>
    step_presents h (by simp [transitionOf, hp, hc, last_of_one_lt hn])⟩

/-- Settles O27: the cell ends, and the role START selects what follows it. -/
theorem endStartBeginsByte : Obligations.EndStartBeginsByte := by
  unfold Obligations.EndStartBeginsByte
  exact fun s => ⟨rfl, fun p b rest h hc hn hr hp =>
    step_presents h ((transitionOf_cellEnd hc hn hp).trans (congrArg cellEndInstr hr))⟩

/-- Settles O28: the byte is complete exactly if the bit merged is the eighth. -/
theorem endDataMergesBit : Obligations.EndDataMergesBit := by
  unfold Obligations.EndDataMergesBit
  intro s
  have hidx : (lastTick .data s.cellVal s).mergeBit.bitIdx.toNat = 8 ↔ s.bitIdx + 1 = 8 :=
    BitVec.toNat_inj (x := s.bitIdx + 1) (y := 8)
  refine ⟨fun hne => ?_, fun heq => ?_, fun p b rest h hc hn hr hp =>
    step_presents h ((transitionOf_cellEnd hc hn hp).trans (congrArg cellEndInstr hr))⟩
  · rw [exec, execTEndData, endDataIfEight_of_ne (mt hidx.mp hne)]
    rfl
  · rw [exec, execTEndData, endDataIfEight_of_eq (hidx.mpr heq)]
    rfl

/-- Settles O29: the byte finds an entry, and with the seventh the flush is due. -/
theorem endStopAppendsAndFlushesAtSeven : Obligations.EndStopAppendsAndFlushesAtSeven := by
  unfold Obligations.EndStopAppendsAndFlushesAtSeven
  intro s
  refine ⟨fun hfew => ?_, fun e0 e1 e2 e3 e4 e5 hsix => ?_, fun p b rest h hc hn hr hp =>
    step_presents h ((transitionOf_cellEnd hc hn hp).trans (congrArg cellEndInstr hr))⟩
  · rw [exec_tEndStop (by omega), flushIfPending_of_ne (by simp [State.store, lastTick_eq]; omega)]
    rfl
  · have hseven : Holds7 ((lastTick .stop s.cellVal s).store (byteEntry s)) e0 e1 e2 e3 e4 e5 (byteEntry s) :=
      congrArg (· ++ [byteEntry s]) hsix
    rw [exec_tEndStop (by simp [hsix]), flushIfPending_of_eq (congrArg List.length hseven), flushTelegram_of_holds7 hseven]
    rfl

/-- Settles O56: the frame is read cell by cell from the hunt, and the flush is due where the byte is the seventh. -/
theorem tickMachineReadsFrameIn520Steps : Obligations.TickMachineReadsFrameIn520Steps := by
  unfold Obligations.TickMachineReadsFrameIn520Steps
  intro s f rest hinv hc hlen hhead hs
  have hrun := (ticksTo_frame (insideLoop_of_blockInv hinv (by simp [hc])) hc hlen hhead hs).run_eq
  refine ⟨fun hfew => ?_, fun e0 e1 e2 e3 e4 e5 hsix => ?_⟩
  · rwa [flushIfPending_of_ne (by simp; omega)] at hrun
  · have hseven : Holds7 { afterFrame s.pos f s with tg := s.tg ++ [frameEntry s.pos f], inp := rest }
        e0 e1 e2 e3 e4 e5 (frameEntry s.pos f) := congrArg (· ++ [frameEntry s.pos f]) hsix
    rwa [flushIfPending_of_eq (congrArg List.length hseven), flushTelegram_of_holds7 hseven] at hrun

end Sys2Proof.Proofs

/-! SUPPORT. Proofs, twenty-fourth part: the block in HALT (R190), and a stream that ends inside a frame or with it (R198). -/

namespace Sys2Proof.Machine

open Sys2Proof Sys2Proof.Safety

/-! ### The block in HALT (R162, R190) -/

section

variable {s t : State}

theorem selectable_halted (hc : s.ctl = .halt) (hheld : s.tg.length ≤ 6) : s.selectable = true :=
  selectable_iff.mpr ⟨Nat.lt_succ_of_le hheld, by simp [hc]⟩

/-- In HALT nothing suspended is taken up, so without a request the step is the selected transition. -/
theorem step_halted_of_defined (hc : s.ctl = .halt) (hr : s.request = none) (h : undefinedSelector s = false) :
    step s = exec (transitionOf s s.port) (s.withInp s.inp.tail) := by
  have hd : decode (fetchWord s) = .ok (transitionOf s s.port) := by rw [fetchWord_tick hr, decode_selectorWord]
  rw [step_eq_exec (resumption_halted hc) h hd (.inl hr), passFetch_tick hr]

/-- R162: whatever is presented but Reset is taken away, and nothing else changes. -/
theorem step_halted (hc : s.ctl = .halt) (hr : s.request = none) (hheld : s.tg.length ≤ 6) (hrst : s.port.rst = false) :
    step s = .next (s.withInp s.inp.tail) := by
  have hsymbol : s.port.symbol ≠ .reset := fun h => by simp [symbol_eq_reset_iff.mp h] at hrst
  rw [step_halted_of_defined hc hr (undefinedSelector_false (selectable_halted hc hheld)), transitionOf_halted hc hsymbol]
  rfl

/-- R190: any number of steps without a reset. -/
theorem run_halted (k : Nat) (hc : s.ctl = .halt) (hr : s.request = none) (hheld : s.tg.length ≤ 6)
    (hrst : ∀ p ∈ s.inp.take k, p.rst = false) : core.run k s = .next (s.withInp (s.inp.drop k)) := by
  induction k generalizing s with
  | zero => rfl
  | succ k ih =>
    obtain ⟨hport, hrest⟩ : s.port.rst = false ∧ ∀ p ∈ s.inp.tail.take k, p.rst = false := by
      rw [State.port]
      cases hs : s.inp with
      | nil => simp [PortIn.quiet]
      | cons p q => simpa [hs] using hrst
    calc core.run (k + 1) s
        = core.run k (s.withInp s.inp.tail) := run_succ k (step_halted hc hr hheld hport)
      _ = .next ((s.withInp s.inp.tail).withInp (s.inp.tail.drop k)) := ih hc hr hheld hrest
      _ = .next (s.withInp (s.inp.drop (k + 1))) := by rw [List.drop_tail]; rfl

/-- Of what can be requested, HALT holds all but POS and RESET. -/
theorem eq_pos_or_reset_of_not_held {i : Instr} (hop : isTransition i = false) (h : heldByHalt i = false) :
    i = .pos ∨ i = .reset := by
  simpa [heldByHalt, hop, or_iff_not_imp_left] using h

/-- R162, R161: without a request a step from HALT takes the symbol away, or is a reset. -/
theorem eq_of_step_halted_tick (hc : s.ctl = .halt) (hr : s.request = none) (h : undefinedSelector s = false)
    (hstep : step s = .next t) :
    t = s.withInp s.inp.tail ∨ t = (s.withInp s.inp.tail).resetBlock ∧ s.port.rst = true := by
  rw [step_halted_of_defined hc hr h] at hstep
  by_cases hp : s.port.symbol = .reset
  · rw [transitionOf_reset hp] at hstep
    exact .inr ⟨(Host.Outcome.next.inj hstep).symm, symbol_eq_reset_iff.mp hp⟩
  · rw [transitionOf_halted hc hp] at hstep
    exact .inl (Host.Outcome.next.inj hstep).symm

/-- R11, R103, R200: an operation that is performed in HALT writes its outcome only, unless it is RESET. -/
theorem eq_of_exec_halted {i : Instr} (hc : s.ctl = .halt) (hop : isTransition i = false) (h : exec i s = .next t) :
    ∃ x, t = s.withResult x ∨ t = s.resetBlock.withResult x ∧ i = .reset := by
  cases hheld : heldByHalt i with
  | true =>
    rw [exec_halted hc hheld] at h
    exact ⟨_, .inl (Host.Outcome.next.inj h).symm⟩
  | false =>
    rcases eq_pos_or_reset_of_not_held hop hheld with rfl | rfl
    · exact ⟨_, .inl (Host.Outcome.next.inj h).symm⟩
    · exact ⟨_, .inr ⟨(Host.Outcome.next.inj h).symm, rfl⟩⟩

end

/-! ### The levels of a frame that has been cut short -/

section

variable {f : List Level} {d : Nat}

/-- The level at the first tick of a cell that has begun is known. -/
theorem frameBit_take {i : Nat} (h : 52 * (i + 1) < d) : frameBit (f.take d) i = frameBit f i := by
  simp [frameBit, List.getElem?_take_of_lt h]

theorem bitsByte_take {n : Nat} (h : 52 * n < d) : bitsByte (f.take d) n = bitsByte f n := by
  have hbits : ∀ i ∈ List.range n, (frameBit (f.take d) i).toNat * 2 ^ i = (frameBit f i).toNat * 2 ^ i := by
    intro i hi
    rw [List.mem_range] at hi
    rw [frameBit_take (by omega)]
  rw [bitsByte, bitsByte, List.map_congr_left hbits]

theorem cellRecords_take (q : Nat) {n : Nat} (h : 52 * n < d) : cellRecords q (f.take d) n = cellRecords q f n := by
  refine congrArg (List.cons _) (List.map_congr_left fun i hi => ?_)
  rw [List.mem_range] at hi
  rw [frameBit_take (by omega)]

/-- R159: the first ten records of a frame: start bit, data bits and value. -/
theorem take_ten_frameRecords (q : Nat) (f : List Level) :
    (frameRecords q f).take 10 = cellRecords q f 8 ++ [⟨q + 52, q + 468, .value, .byteHex, bitsByte f 8⟩] := rfl

/-- R198: the records emitted before tick `d` depend on the levels before it only. -/
theorem recordsAfter_frameRecords_take (q : Nat) (f : List Level) (hd : d < 520) :
    (frameRecords q (f.take d)).take (recordsAfter d) = (frameRecords q f).take (recordsAfter d) := by
  by_cases hstart : d < 52
  · rw [recordsAfter_of_lt hstart, List.take_zero, List.take_zero]
  obtain ⟨n, hcells⟩ := Nat.exists_eq_add_of_le' (show 1 ≤ d / 52 by omega)
  by_cases hdata : n < 8
  · rw [recordsAfter_data hdata hcells, take_frameRecords _ _ hdata.le, take_frameRecords _ _ hdata.le,
      cellRecords_take q (by omega)]
  · obtain rfl : n = 8 := by omega
    rw [recordsAfter_stop hcells, take_ten_frameRecords, take_ten_frameRecords, cellRecords_take q (by omega),
      bitsByte_take (by omega)]

end

/-! ### Eos behind the ticks of a run -/

/-- R163: the step that takes Eos after `n` others. -/
theorem TicksTo.run_eos {n : Nat} {s t : State} {p : PortIn} {q : List PortIn} (h : TicksTo n s t) (ht : t.inp = p :: q)
    (hp : p.symbol = .eos) : core.run (n + 1) s = .next (t.withInp q).raiseEndOfStream :=
  (run_add_of_next core 1 h.run_eq).trans (run_succ 0 (step_eos h.inside ht hp))

/-- A run has one end. -/
theorem TicksTo.of_run {n : Nat} {s t u : State} (h : TicksTo n s t) (hu : core.run n s = .next u) : TicksTo n s u := by
  obtain rfl : t = u := Host.Outcome.next.inj (h.run_eq.symm.trans hu)
  exact h

end Sys2Proof.Machine

/-! SUPPORT. Proofs, twenty-fifth part: the statements of `60_exceptions.md`. -/

namespace Sys2Proof.Proofs

open Sys2Proof Sys2Proof.Machine Sys2Proof.Safety

/-- Settles O15: without a request T.HALTED and T.RESET alone are selected in HALT, and of the operations only POS and RESET are
performed. -/
theorem haltLastsUntilReset : Obligations.HaltLastsUntilReset := by
  unfold Obligations.HaltLastsUntilReset
  refine ⟨fun k s hr hc hheld hrst => run_halted k hc hr hheld hrst, fun s t hc hstep => ?_⟩
  obtain ⟨p, hp, -⟩ | ⟨-, hdefined, i, hi, hop, hexec⟩ := step_eq_next hstep
  · rw [resumption_halted hc] at hp
    cases hp
  cases hr : s.request with
  | none =>
    obtain rfl | ⟨rfl, hrst⟩ := eq_of_step_halted_tick hc hr hdefined hstep
    · exact .inl rfl
    · exact .inr ⟨rfl, .inl ⟨rfl, hrst⟩⟩
  | some w =>
    have hop : isTransition i = false := hop.resolve_left (by simp [hr])
    rw [passFetch_request hr] at hexec
    rw [fetchWord_request hr] at hi
    obtain ⟨x, rfl | ⟨rfl, rfl⟩⟩ := eq_of_exec_halted (s := s.withRequest none) hc hop hexec
    · exact .inl rfl
    · exact .inr ⟨rfl, .inr ⟨w, rfl, hi⟩⟩

/-- R198: inside the frame the tick machine ends as LOOP does, which Eos ends before the APPEND. -/
theorem run_cutFrame {s : State} {f : List Level} (h : BlockInv s) (hc : s.ctl = .hunt) (hlen : f.length < 520)
    (hhead : f.head? = some false) (hs : s.inp = streamThenEos f) :
    ∃ t, core.run (f.length + 1) s = .next t ∧ t.ctl = .halt ∧ t.pos = s.pos + f.length ∧ t.tg = s.tg ∧
      t.sink = s.sink ++ (frameRecords s.pos f).take (recordsAfter f.length) := by
  have hroom : s.tg.length < 7 := (selectable_iff.mp (selectable_of_blockInv h)).1
  obtain ⟨t, hrun, -, hloops⟩ := tickLevelEqualsOperationLevel s f h hc hs
  obtain ⟨u, hloop, hhalt, hpos, htg, -, hsink, -, hres⟩ := cutFrameIsNotAppended .loop s 0 f (onLine f) []
    PortIn.endOfStream (.inr rfl) (by simp [hc]) hroom hs symbol_endOfStream (carries_onLine f) hlen (.inr hhead)
  have hend : runLoops (f.length + 2) s = .next u := by
    rw [runLoops_succ, show execLoop s = .next u from hloop]
    simp only [andLoops, hres]
  obtain rfl : { t with result := .ended } = u := Host.Outcome.next.inj (hloops.symm.trans hend)
  exact ⟨t, hrun, hhalt, hpos, htg, hsink⟩

/-- Settles O58: inside the frame by way of LOOP, which is ended there; with the frame complete, Eos is met in the next hunt. -/
theorem streamEndInsideFrame : Obligations.StreamEndInsideFrame := by
  unfold Obligations.StreamEndInsideFrame
  intro s f d h hc hlen hhead hs
  have hwhole (hd : d = 520) : s.inp = onLine f ++ [PortIn.endOfStream] := by
    rw [hs, List.take_of_length_le (by omega)]
    rfl
  have hticks (hd : d = 520) := ticksTo_frame (insideLoop_of_blockInv h (by simp [hc])) hc hlen hhead (hwhole hd)
  have hframe (hd : d = 520) := tickMachineReadsFrameIn520Steps s f _ h hc hlen hhead (hwhole hd)
  refine ⟨fun hd₁ hd => ?_, fun hd hfew => ?_, fun e0 e1 e2 e3 e4 e5 hd hsix => ?_⟩
  · have hcut : (f.take d).length = d := by rw [List.length_take]; omega
    have hfirst : (f.take d).head? = some false := by rw [List.head?_take, if_neg (by omega), hhead]
    obtain ⟨t, hrun, hhalt, hpos, htg, hsink⟩ := run_cutFrame h hc (by omega) hfirst hs
    rw [hcut] at hrun hpos hsink
    rw [recordsAfter_frameRecords_take _ _ (by omega)] at hsink
    exact ⟨t, hrun, hhalt, hpos, htg, hsink⟩
  · have hdone := (hticks hd).of_run ((hframe hd).1 hfew)
    exact ⟨_, hdone.run_eos rfl symbol_endOfStream, rfl, rfl, rfl, rfl⟩
  · have hdone := (hticks hd).of_run ((hframe hd).2 e0 e1 e2 e3 e4 e5 hsix)
    exact ⟨_, hdone.run_eos rfl symbol_endOfStream, rfl, rfl, rfl, rfl⟩

end Sys2Proof.Proofs

/-! SUPPORT. Proofs, twenty-sixth part: the steps that bring no symbol (R164, R216), and a line stuck at one level (R206). -/

namespace Sys2Proof.Machine

open Sys2Proof Sys2Proof.Safety

/-! ### The input to come is not looked at by a transition -/

section

variable {s t : State} {p : PortIn} {i : Instr}

theorem endDataIfEight_withInp (s : State) (q : List PortIn) :
    endDataIfEight (s.withInp q) = (endDataIfEight s).withInp q := by
  by_cases h8 : s.bitIdx.toNat = 8
  · rw [endDataIfEight_of_eq h8, endDataIfEight_of_eq (s := s.withInp q) h8]
    rfl
  · rw [endDataIfEight_of_ne h8, endDataIfEight_of_ne (s := s.withInp q) h8]

theorem flushIfPending_withInp (s : State) (q : List PortIn) :
    flushIfPending (s.withInp q) = (flushIfPending s).withInp q := by
  rw [flushIfPending_eq, flushIfPending_eq]
  rfl

/-- R83, R160: a transition has its symbol from the selector, so it goes on alike whatever is still to come. -/
theorem exec_transition_withInp (hi : isTransition i = true) (q : List PortIn) (h : exec i s = .next t) :
    exec i (s.withInp q) = .next (t.withInp q) := by
  cases i with
  | tEndData =>
    cases h
    exact congrArg Host.Outcome.next (endDataIfEight_withInp (lastTick .data s.cellVal s).mergeBit q)
  | tEndStop =>
    obtain ⟨u, hu, rfl⟩ := storedNext_eq_next (h : execTEndStop s = .next t)
    obtain ⟨hroom, rfl⟩ := appendEntry_eq_ok.mp hu
    rw [exec_tEndStop (s := s.withInp q) hroom]
    exact congrArg Host.Outcome.next
      (flushIfPending_withInp ((lastTick .stop s.cellVal s).store (byteEntry s)) q)
  | tReset | tHalted | tEos | tIdle | tHuntMiss | tHuntHit | tFirst | tLowStep | tLowLast | tHighStep | tEndStart =>
    cases h
    rfl
  | _ => cases hi

/-! ### Steps without a symbol -/

/-- Where `p` is presented in a state that meets the invariant, the selected transition is performed. -/
theorem step_withInp_cons (h : BlockInv s) (p : PortIn) (q : List PortIn) :
    step (s.withInp (p :: q)) = exec (transitionOf s p) (s.withInp q) := by
  obtain ⟨⟨hw, -⟩, -⟩ := id h
  exact step_hardwired (s := s.withInp (p :: q)) hw (Proofs.selectable_of_blockInv h)

/-- R162, R164: a step without a symbol takes its entry of the input away, in HALT as elsewhere. -/
theorem step_idle (h : BlockInv s) (hp : p.symbol = .idle) (q : List PortIn) :
    step (s.withInp (p :: q)) = .next (s.withInp q) := by
  rw [step_withInp_cons h]
  by_cases hc : s.ctl = .halt
  · rw [transitionOf_halted hc (by simp [hp])]
    rfl
  · rw [transitionOf_idle hc hp]
    rfl

/-- R160: the port input without the steps that bring no symbol. -/
def withoutIdle (q : List PortIn) : List PortIn := q.filter fun p => decide (p.symbol ≠ .idle)

theorem withoutIdle_cons_of_idle (hp : p.symbol = .idle) (q : List PortIn) : withoutIdle (p :: q) = withoutIdle q :=
  List.filter_cons_of_neg (by simp [hp])

theorem withoutIdle_cons_of_ne (hp : p.symbol ≠ .idle) (q : List PortIn) :
    withoutIdle (p :: q) = p :: withoutIdle q := List.filter_cons_of_pos (by simp [hp])

/-- R216: with the steps that bring no symbol or without them, the run comes to the same. -/
theorem run_withoutIdle (q : List PortIn) (h : BlockInv s) :
    core.run q.length (s.withInp q) = core.run (withoutIdle q).length (s.withInp (withoutIdle q)) := by
  induction q generalizing s with
  | nil => rfl
  | cons p q ih =>
    by_cases hp : p.symbol = .idle
    · rw [withoutIdle_cons_of_idle hp]
      exact (run_succ q.length (step_idle h hp q)).trans (ih h)
    · obtain ⟨t, hexec, ht⟩ := blockInv_exec_transitionOf p h
      have hstep (x : List PortIn) : step (s.withInp (p :: x)) = .next (t.withInp x) :=
        (step_withInp_cons h p x).trans (exec_transition_withInp (isTransition_transitionOf s p) x hexec)
      rw [withoutIdle_cons_of_ne hp]
      calc core.run (q.length + 1) (s.withInp (p :: q))
          = core.run q.length (t.withInp q) := run_succ _ (hstep q)
        _ = core.run (withoutIdle q).length (t.withInp (withoutIdle q)) := ih ht
        _ = core.run ((withoutIdle q).length + 1) (s.withInp (p :: withoutIdle q)) := (run_succ _ (hstep _)).symm

end

/-! ### A line stuck high -/

/-- R100, R165: the hunt passes over every high sample. -/
theorem ticksTo_highTicks (n : Nat) {s : State} {x : List PortIn} (h : InsideLoop s) (hc : s.ctl = .hunt)
    (hs : s.inp = onLine (highTicks n) ++ x) : TicksTo n s { s with pos := s.pos + n, inp := x } := by
  induction n generalizing s with
  | zero =>
    obtain rfl : s.inp = x := hs
    exact .refl h
  | succ n ih =>
    have hmiss := (sampleTaken_huntMiss h hs (symbol_ofLevel true) hc).ticksTo
    have hrest := hmiss.trans (ih hmiss.inside hc rfl)
    rw [Nat.add_comm 1] at hrest
    simpa only [State.advance, State.withInp, Nat.add_assoc, Nat.add_comm 1] using hrest

/-! ### One frame again and again -/

/-- R159: the records of `n` frames of the same levels, the first found at `q` and each other where the one before it
ends. -/
def repeatedRecords (q : Nat) (f : List Level) (n : Nat) : List Record :=
  (List.range n).flatMap fun i => frameRecords (q + 520 * i) f

/-- R122: the entries these frames add to the buffers. -/
def repeatedEntries (q : Nat) (f : List Level) (n : Nat) : List TgEntry :=
  (List.range n).map fun i => frameEntry (q + 520 * i) f

section

variable {s : State} {f : List Level} {x : List PortIn}

theorem repeatedRecords_succ (q : Nat) (f : List Level) (n : Nat) :
    repeatedRecords q f (n + 1) = repeatedRecords q f n ++ frameRecords (q + 520 * n) f := by
  simp [repeatedRecords, List.range_succ]

theorem repeatedEntries_succ (q : Nat) (f : List Level) (n : Nat) :
    repeatedEntries q f (n + 1) = repeatedEntries q f n ++ [frameEntry (q + 520 * n) f] := by
  simp [repeatedEntries, List.range_succ]

@[simp] theorem repeatedEntries_length (q : Nat) (f : List Level) (n : Nat) : (repeatedEntries q f n).length = n := by
  simp [repeatedEntries]

theorem frameRecords_length (q : Nat) (f : List Level) : (frameRecords q f).length = 11 := rfl

theorem repeatedRecords_length (q : Nat) (f : List Level) (n : Nat) : (repeatedRecords q f n).length = 11 * n := by
  simp [repeatedRecords, List.length_flatMap, frameRecords_length, Nat.mul_comm]

/-- What a hunting state with nothing held has become after `n` frames of the same levels, `n` at most six: the bytes are
held, and no telegram is complete. -/
structure FramesRead (f : List Level) (n : Nat) (x : List PortIn) (s t : State) : Prop where
  ticks : TicksTo (520 * n) s t
  ctl_eq : t.ctl = .hunt
  pos_eq : t.pos = s.pos + 520 * n
  inp_eq : t.inp = x
  tg_eq : t.tg = repeatedEntries s.pos f n
  sink_eq : t.sink = s.sink ++ repeatedRecords s.pos f n

/-- R178: frame upon frame, as long as the buffers do not fill. -/
theorem exists_framesRead (n : Nat) (hn : n ≤ 6) (h : InsideLoop s) (hc : s.ctl = .hunt) (htg : s.tg = [])
    (hlen : f.length = 520) (hhead : f.head? = some false) (hs : s.inp = onLine (List.replicate n f).flatten ++ x) :
    ∃ t, FramesRead f n x s t := by
  induction n generalizing x with
  | zero => exact ⟨s, .refl h, hc, rfl, hs, htg, (List.append_nil _).symm⟩
  | succ n ih =>
    rw [List.replicate_succ', List.flatten_concat, onLine_append, List.append_assoc] at hs
    obtain ⟨t, hticks, htc, hpos, hinp, hheld, hsink⟩ := ih (by omega) hs
    have hlast := ticksTo_frame hticks.inside htc hlen hhead hinp
    rw [flushIfPending_of_ne (by simp [hheld]; omega)] at hlast
    refine ⟨_, hticks.trans hlast, rfl, ?_, rfl, ?_, ?_⟩
    · change t.pos + 520 = _
      omega
    · rw [repeatedEntries_succ, ← hheld, ← hpos]
    · rw [repeatedRecords_succ, ← List.append_assoc, ← hsink, ← hpos]
      rfl

/-- R132, R159: the records of seven frames of the same levels and of the telegram that they are. -/
def repeatedTelegram (q : Nat) (f : List Level) : List Record :=
  repeatedRecords q f 7 ++
    telegramRecords (frameEntry (q + 520 * 0) f) (frameEntry (q + 520 * 1) f) (frameEntry (q + 520 * 2) f)
      (frameEntry (q + 520 * 3) f) (frameEntry (q + 520 * 4) f) (frameEntry (q + 520 * 5) f) (frameEntry (q + 520 * 6) f)

/-- R173: with the seventh frame the telegram is flushed, and the hunt is for the next. -/
theorem exists_ticksTo_repeatedTelegram (h : InsideLoop s) (hc : s.ctl = .hunt) (htg : s.tg = []) (hlen : f.length = 520)
    (hhead : f.head? = some false) (hs : s.inp = onLine (List.replicate 7 f).flatten ++ x) :
    ∃ t, TicksTo 3640 s t ∧ t.tg = [] ∧ t.ctl = .hunt ∧ t.sink = s.sink ++ repeatedTelegram s.pos f := by
  rw [List.replicate_succ', List.flatten_concat, onLine_append, List.append_assoc] at hs
  obtain ⟨t, hticks, htc, hpos, hinp, hheld, hsink⟩ := exists_framesRead 6 le_rfl h hc htg hlen hhead hs
  have hlast := ticksTo_frame hticks.inside htc hlen hhead hinp
  have hseven : Holds7 { afterFrame t.pos f t with tg := t.tg ++ [frameEntry t.pos f], inp := x }
      (frameEntry (s.pos + 520 * 0) f) (frameEntry (s.pos + 520 * 1) f) (frameEntry (s.pos + 520 * 2) f)
      (frameEntry (s.pos + 520 * 3) f) (frameEntry (s.pos + 520 * 4) f) (frameEntry (s.pos + 520 * 5) f)
      (frameEntry (s.pos + 520 * 6) f) := by
    rw [Holds7, hheld, hpos]
    rfl
  rw [flushIfPending_of_eq (congrArg List.length hseven), flushTelegram_of_holds7 hseven] at hlast
  refine ⟨_, hticks.trans hlast, rfl, rfl, ?_⟩
  rw [repeatedTelegram, repeatedRecords_succ, ← hpos, ← List.append_assoc, ← List.append_assoc, ← hsink]
  rfl

end

/-! ### The records of a telegram of bytes 00 with stop bits 0 (R206) -/

/-- R206: the record is as on a line stuck low: a value is 00, a stop bit 0, and the checksum is not found wrong. -/
structure ZeroRecord (r : Record) : Prop where
  value : r.cat = .value → r.data = 0
  stopBit : r.cat = .stopBit → r.data = 0
  crc : r.lbl ≠ .badCrc

section

variable {q : Nat} {f : List Level}

/-- R149, R148: a frame's records carry its byte and its stop bit, and none of them a verdict. -/
theorem zeroRecord_of_mem_frameRecords (hbyte : frameByte f = 0) (hstop : frameStop f = false) :
    ∀ r ∈ frameRecords q f, ZeroRecord r := by
  intro r hr
  simp only [frameRecords, List.mem_append, List.mem_map, List.mem_cons, List.not_mem_nil, or_false] at hr
  obtain (rfl | ⟨i, -, rfl⟩) | rfl | rfl := hr
  · exact ⟨nofun, nofun, nofun⟩
  · exact ⟨nofun, nofun, nofun⟩
  · exact ⟨fun _ => hbyte, nofun, nofun⟩
  · exact ⟨nofun, fun _ => by rw [hstop]; rfl, nofun⟩

/-- R132, R156: the telegram's records are no value and no stop bit, and its one verdict is the good one. -/
theorem zeroRecord_of_mem_telegramRecords {e0 e1 e2 e3 e4 e5 e6 : TgEntry} (hgood : goodSum e1 e2 e3 e4 e5 = true) :
    ∀ r ∈ telegramRecords e0 e1 e2 e3 e4 e5 e6, ZeroRecord r := by
  have hfield (ss es : Nat) {c : Category} {l : Label} (hv : c ≠ .value) (hs : c ≠ .stopBit) (hl : l ≠ .badCrc) :
      ZeroRecord ⟨ss, es, c, l, 0⟩ := ⟨fun e => absurd e hv, fun e => absurd e hs, hl⟩
  simp only [telegramRecords, hgood, if_true, List.forall_mem_cons]
  exact ⟨hfield _ _ nofun nofun nofun, hfield _ _ nofun nofun nofun, hfield _ _ nofun nofun nofun,
    hfield _ _ nofun nofun nofun, hfield _ _ nofun nofun nofun, hfield _ _ nofun nofun nofun,
    hfield _ _ nofun nofun nofun, hfield _ _ nofun nofun nofun, nofun⟩

/-- R156: a right checksum has its record in the flush. -/
theorem exists_goodCrc_telegramRecords {e0 e1 e2 e3 e4 e5 e6 : TgEntry} (hgood : goodSum e1 e2 e3 e4 e5 = true) :
    ∃ r ∈ telegramRecords e0 e1 e2 e3 e4 e5 e6, r.lbl = .goodCrc :=
  ⟨⟨e5.ss, e5.es, .scsField, .goodCrc, 0⟩, by simp [telegramRecords, hgood], rfl⟩

/-- R133: a telegram of bytes 00 has a right checksum. -/
theorem goodSum_frameEntry (hbyte : frameByte f = 0) (q1 q2 q3 q4 q5 : Nat) :
    goodSum (frameEntry q1 f) (frameEntry q2 f) (frameEntry q3 f) (frameEntry q4 f) (frameEntry q5 f) = true := by
  simp [goodSum, frameEntry, hbyte]

theorem repeatedTelegram_length (q : Nat) (f : List Level) : (repeatedTelegram q f).length = 85 := by
  rw [repeatedTelegram, List.length_append, repeatedRecords_length]
  rfl

theorem zeroRecord_of_mem_repeatedTelegram (hbyte : frameByte f = 0) (hstop : frameStop f = false) :
    ∀ r ∈ repeatedTelegram q f, ZeroRecord r := by
  intro r hr
  rcases List.mem_append.mp hr with hr | hr
  · obtain ⟨i, -, hi⟩ := List.mem_flatMap.mp hr
    exact zeroRecord_of_mem_frameRecords hbyte hstop r hi
  · exact zeroRecord_of_mem_telegramRecords (goodSum_frameEntry hbyte ..) r hr

theorem exists_goodCrc_repeatedTelegram (hbyte : frameByte f = 0) : ∃ r ∈ repeatedTelegram q f, r.lbl = .goodCrc := by
  obtain ⟨r, hr, hlbl⟩ := exists_goodCrc_telegramRecords (goodSum_frameEntry hbyte ..)
  exact ⟨r, List.mem_append_right _ hr, hlbl⟩

end

/-! ### The frame of a line stuck low -/

/-- R206: a line stuck low for the time of `m` frames carries `m` frames of low levels. -/
theorem lowTicks_eq_flatten (m n : Nat) : lowTicks (m * n) = (List.replicate m (lowTicks n)).flatten := by
  rw [lowTicks, lowTicks, List.flatten_replicate_replicate]

theorem getD_lowTicks (n i : Nat) : (lowTicks n).getD i false = false := by
  rw [lowTicks, List.getD_eq_getElem?_getD, List.getElem?_replicate]
  split_ifs <;> rfl

theorem frameStop_lowTicks (n : Nat) : frameStop (lowTicks n) = false := getD_lowTicks n 468

theorem frameByte_lowTicks (n : Nat) : frameByte (lowTicks n) = 0 := by
  have hbit (i : Nat) : frameBit (lowTicks n) i = false := getD_lowTicks n _
  simp [frameByte, hbit]

end Sys2Proof.Machine

/-! SUPPORT. Proofs, twenty-seventh part: the statements of `70_reset_and_hazards.md`. -/

namespace Sys2Proof.Proofs

open Sys2Proof Sys2Proof.Machine Sys2Proof.Safety

/-- Settles O54: RESET is guarded against no state, and what it keeps of the state is its environment. -/
theorem resetOperationClearsRegisters : Obligations.ResetOperationClearsRegisters := by
  unfold Obligations.ResetOperationClearsRegisters
  intro s
  rw [exec, execReset, completedNext, State.resetBlock_eq]
  rfl

/-- Settles O16: the two runs come to the same outcome, step by step. -/
theorem idleStepsChangeNothing : Obligations.IdleStepsChangeNothing := by
  unfold Obligations.IdleStepsChangeNothing
  intro q s t u h ht hu
  exact Host.Outcome.next.inj (ht.symm.trans ((run_withoutIdle q h).trans hu))

/-- Settles O59: the hunt goes on at every high sample. -/
theorem stuckHighLineDecodesNothing : Obligations.StuckHighLineDecodesNothing := by
  unfold Obligations.StuckHighLineDecodesNothing
  intro n s h hc hs
  exact (ticksTo_highTicks n (insideLoop_of_blockInv h (by simp [hc])) hc (hs.trans (List.append_nil _).symm)).run_eq

/-- Settles O60: the line is seven frames of low levels, each the byte 00 with stop bit 0, and the XOR of bytes 00 is 00. -/
theorem stuckLowLineDecodesZeroTelegrams : Obligations.StuckLowLineDecodesZeroTelegrams := by
  unfold Obligations.StuckLowLineDecodesZeroTelegrams
  intro s h hc htg hs
  have hline : s.inp = onLine (List.replicate 7 (lowTicks 520)).flatten ++ [] := by
    rw [hs, List.append_nil, ← lowTicks_eq_flatten]
  obtain ⟨t, hticks, hempty, hhunt, hsink⟩ := exists_ticksTo_repeatedTelegram
    (insideLoop_of_blockInv h (by simp [hc])) hc htg List.length_replicate rfl hline
  have hbyte := frameByte_lowTicks 520
  have hzero := zeroRecord_of_mem_repeatedTelegram (q := s.pos) hbyte (frameStop_lowTicks 520)
  refine ⟨t, hticks.run_eq, hempty, hhunt, ?_⟩
  rw [newRecords_eq hsink]
  exact ⟨repeatedTelegram_length s.pos _, fun r hr => (hzero r hr).value, fun r hr => (hzero r hr).stopBit,
    exists_goodCrc_repeatedTelegram hbyte, fun r hr => (hzero r hr).crc⟩

end Sys2Proof.Proofs
